-- ==== Sys2Proof/Word.lean ====
section
/-! DEFINITION. The byte and the ASCII bytes the rules name (00_scope.md R9). -/

namespace Sys2Proof

/-- R9: a byte is an unsigned 8-bit value. -/
abbrev Byte := BitVec 8

/-- R9: `NUL`. -/
abbrev nul : Byte := 0x00#8

/-- R9: `SP`. -/
abbrev sp : Byte := 0x20#8

/-- R9: `STAR`, the asterisk. -/
abbrev asterisk : Byte := 0x2A#8

/-- R250: the status text of a positive response, `"OK "`. -/
abbrev okText : List Byte := [0x4F#8, 0x4B#8, 0x20#8]

/-- R250: the status text of a negative response, `"NK "`. -/
abbrev nkText : List Byte := [0x4E#8, 0x4B#8, 0x20#8]

/-- R78: the text `"ST "` of a notification. -/
abbrev stText : List Byte := [0x53#8, 0x54#8, 0x20#8]

end Sys2Proof
end

