-- ==== Sys2Proof/Syntax.lean ====
section
/-! DEFINITION. The instructions: one constructor per row of spec/opcode_table.json. -/

namespace Sys2Proof

/-- R2, R70, R82: the 21 commands and the four received-byte classes.
A command has no operand field: all 16 bits of its command word are fixed, and its operands are
read from the token slots of its frame (R20, R166). RX.SOC and RX.EOC carry no byte either, since
their byte is the build's `P_SOC` or `P_EOC`. -/
inductive Instr where
  /-- FB, set display backlight (R184). -/
  | fb
  /-- FD, disable charging (R181). -/
  | fd
  /-- FE, enable charging (R180). -/
  | fe
  /-- FP, print text at a position (R185). -/
  | fp
  /-- FR, trigger a watchdog reset (R183). -/
  | fr
  /-- FS, sleep (R182). -/
  | fs
  /-- S1, set clock (R209). -/
  | s1
  /-- SC, set current capacity limit (R201). -/
  | sc
  /-- SD, diode check enable (R202). -/
  | sd
  /-- SE, echo on or off (R200). -/
  | se
  /-- SG, ground check enable (R203). -/
  | sg
  /-- SL, service level, or automatic detection (R204). -/
  | sl
  /-- SR, stuck-relay check enable (R205). -/
  | sr
  /-- SS, self-test enable (R206). -/
  | ss
  /-- ST, delay-timer schedule, or disable (R207). -/
  | st
  /-- SV, vent-required enable (R208). -/
  | sv
  /-- GC, get current-capacity range (R230). -/
  | gc
  /-- GE, get current state and elapsed charge time (R232). -/
  | ge
  /-- GS, get aggregate settings (R231). -/
  | gs
  /-- GT, clock read (R233). -/
  | gt
  /-- GV, firmware version (R234). -/
  | gv
  /-- RX.SOC, a start byte (R104). -/
  | rxSoc
  /-- RX.EOC, an end byte while a frame is collected (R105, R106). -/
  | rxEoc
  /-- RX.DATA, any other byte while a frame is collected (R107, R108). -/
  | rxData (c : Byte)
  /-- RX.IDLE, any byte but a start byte while no frame is collected (R109). -/
  | rxIdle (c : Byte)
deriving DecidableEq, Repr

/-- The 21 commands of R82, in the table's order. -/
def allCommands : List Instr :=
  [.fb, .fd, .fe, .fp, .fr, .fs]
    ++ [.s1, .sc, .sd, .se, .sg, .sl, .sr, .ss, .st, .sv]
    ++ [.gc, .ge, .gs, .gt, .gv]

/-- Whether an instruction is one of the 21 commands (not a byte class). -/
def Instr.isCommand : Instr → Bool
  | .rxSoc | .rxEoc | .rxData _ | .rxIdle _ => false
  | _ => true

end Sys2Proof
end

