-- ==== Sys2Proof/Config.lean ====
section
/-! DEFINITION. What a build fixes (00_scope.md R7) and the values the spec leaves free. -/

namespace Sys2Proof

/-- R7: the build parameters. They are constants of a machine: State holds one such record and no
step writes it (log entry 1). -/
structure Params where
  /-- `P_SOC`, the start-of-frame byte. -/
  soc : Byte
  /-- `P_EOC`, the end-of-frame byte. -/
  eoc : Byte
  /-- `P_BUF_LEN`, the frame buffer's capacity, counting start byte and terminator slot. -/
  bufLen : Nat
  /-- `P_MAX_TOKENS`, the number of token slots. -/
  maxTokens : Nat
  /-- `P_RESP_LEN`, the response payload's capacity. -/
  respLen : Nat
  /-- `P_RAPI_VER`, the suffix of `GV`; `none` where the build leaves it open (D7, log entry 3). -/
  rapiVer : Option (List Byte)
  /-- `P_PRESENT`, the commands compiled in. -/
  present : List Instr
  /-- `P_ELAPSED_W`, the width of the elapsed charge time. -/
  elapsedW : Nat
deriving DecidableEq, Repr

/-- R7: the defaults (log entry 2). `P_RAPI_VER` has no default and stays open. -/
def Params.default : Params where
  soc := 0x24#8
  eoc := 0x0D#8
  bufLen := 32
  maxTokens := 10
  respLen := 31
  rapiVer := none
  present := allCommands
  elapsedW := 32

/-- Whether a byte is one of the two sentinels. -/
def Params.isSentinel (P : Params) (c : Byte) : Bool := c == P.soc || c == P.eoc

/-- Whether a text holds a sentinel byte. -/
def Params.holdsSentinel (P : Params) (t : List Byte) : Bool := t.any P.isSentinel

namespace Config

/-! Free values: opaque constants with no body, so that no proof can learn what they are. Each of the
first eleven is applied to the number of free answers drawn before (log entry 13); the last is the
open build parameter `P_RAPI_VER` (D7, log entry 3). -/

/-- Free: the 8-bit status of a collaborator answer (R286). -/
opaque freeStatus : Nat → BitVec 8
/-- Free: `lo` of `C_GET_CAP_RANGE` (R286). -/
opaque freeLo : Nat → BitVec 8
/-- Free: `hi` of `C_GET_CAP_RANGE` (R286). -/
opaque freeHi : Nat → BitVec 8
/-- Free: `cap` of `C_GET_SETTINGS` (R286). -/
opaque freeCap : Nat → BitVec 8
/-- Free: `flags` of `C_GET_SETTINGS` (R286). -/
opaque freeFlags : Nat → BitVec 16
/-- Free: `st` of `C_GET_STATE` and `C_NOTIFY_QUERY` (R286). -/
opaque freeState : Nat → BitVec 8
/-- Free: `el` of `C_GET_STATE`, before it is cut to `P_ELAPSED_W` bits (R286). -/
opaque freeElapsed : Nat → Nat
/-- Free: `txt` of `C_GET_TIME` and `ver` of `C_GET_VERSION`, before sentinel bytes are left out
(R286, D26, I-SRC1, I-SRC2). -/
opaque freeText : Nat → List (BitVec 8)
/-- Free: `changed` of `C_NOTIFY_QUERY` (R286). -/
opaque freeChanged : Nat → Bool
/-- Free: whether `C_RESET` asserts the system reset instead of returning (R183, D21). -/
opaque freeResets : Nat → Bool
/-- Free: which pending RX bytes that reset loses (R302). -/
opaque freeLost : Nat → List Bool
/-- Open: `P_RAPI_VER` where the build does not give it, before sentinel bytes are left out (D7). -/
opaque openRapiVer : List (BitVec 8)

end Config

/-- The version suffix a build appends in `GV` (R7, R234): the given string, or the open one less
any sentinel byte, since R7 forbids one in it. -/
def Params.versionSuffix (P : Params) : List Byte :=
  match P.rapiVer with
  | some v => v
  | none => Config.openRapiVer.filter (fun c => !P.isSentinel c)

end Sys2Proof
end

