-- ==== Sys2Proof/WellFormed.lean ====
section
/-! DEFINITION. Which build parameters and which instructions are well formed. -/

namespace Sys2Proof

/-- R71: a sentinel is not `NUL`, `SP`, `'*'`, a digit or an uppercase letter. -/
def sentinelAllowed (c : Byte) : Bool :=
  c != nul && c != sp && c != asterisk
    && !(0x30#8 ≤ c && c ≤ 0x39#8) && !(0x41#8 ≤ c && c ≤ 0x5A#8)

/-- R7, R71, R303(1): the constraints on the build parameters. -/
def Params.ok (P : Params) : Bool :=
  P.soc != P.eoc && sentinelAllowed P.soc && sentinelAllowed P.eoc
    && 2 ≤ P.bufLen && 7 ≤ P.maxTokens && 1 ≤ P.respLen
    && (match P.rapiVer with | some v => !P.holdsSentinel v | none => true)
    && P.present.all Instr.isCommand

/-- R70, R83: the instructions a build can meet while `ACC` is `acc`. A byte class is met only in
the state its row names; a command only if it is compiled in. -/
def Instr.wellFormed (P : Params) (acc : Bool) : Instr → Bool
  | .rxSoc => true
  | .rxEoc => acc
  | .rxData c => acc && c != P.soc && c != P.eoc
  | .rxIdle c => !acc && c != P.soc
  | i => P.present.contains i

end Sys2Proof
end

