-- ==== Sys2Proof/Decode.lean ====
section
/-! DEFINITION. Decoding of received bytes and of command words (30_encoding.md), and the encoders. -/

namespace Sys2Proof

/-- Why bytes are no instruction. All but `badLength` are R84's unrecognised command words. -/
inductive Reject where
  /-- The category byte is none of `'F'`, `'S'`, `'G'` (R81). -/
  | unknownCategory (cat : Byte)
  /-- The category is known, the sub-letter is not (R82). -/
  | unknownSubLetter (cat sub : Byte)
  /-- The command exists but is not in `P_PRESENT` (R83). -/
  | notCompiledIn (i : Instr)
  /-- Neither one received byte nor one two-byte command word. -/
  | badLength (n : Nat)
deriving DecidableEq, Repr

/-- What decoding answers. -/
inductive Decoded where
  | instr (i : Instr)
  | rejected (why : Reject)
deriving DecidableEq, Repr

/-- One row of a category's sub-letter table (R82). -/
structure Row where
  sub : Byte
  instr : Instr
deriving DecidableEq, Repr

/-- R82: the Function commands. -/
def functionRows : List Row :=
  [⟨0x42#8, .fb⟩, ⟨0x44#8, .fd⟩, ⟨0x45#8, .fe⟩, ⟨0x50#8, .fp⟩, ⟨0x52#8, .fr⟩, ⟨0x53#8, .fs⟩]

/-- R82: the Set commands. -/
def setRows : List Row :=
  [⟨0x31#8, .s1⟩, ⟨0x43#8, .sc⟩, ⟨0x44#8, .sd⟩, ⟨0x45#8, .se⟩, ⟨0x47#8, .sg⟩]
    ++ [⟨0x4C#8, .sl⟩, ⟨0x52#8, .sr⟩, ⟨0x53#8, .ss⟩, ⟨0x54#8, .st⟩, ⟨0x56#8, .sv⟩]

/-- R82: the Get commands. -/
def getRows : List Row :=
  [⟨0x43#8, .gc⟩, ⟨0x45#8, .ge⟩, ⟨0x53#8, .gs⟩, ⟨0x54#8, .gt⟩, ⟨0x56#8, .gv⟩]

/-- R81: the first level of the mux. -/
def categoryRows (cat : Byte) : Option (List Row) :=
  if cat = 0x46#8 then some functionRows
  else if cat = 0x53#8 then some setRows
  else if cat = 0x47#8 then some getRows
  else none

/-- R162: the two-level lookup of a command word, restricted to `P_PRESENT` (R83). -/
def decodeLetters (P : Params) (cat sub : Byte) : Decoded :=
  match categoryRows cat with
  | none => .rejected (.unknownCategory cat)
  | some rows =>
    match rows.find? (fun r => r.sub == sub) with
    | none => .rejected (.unknownSubLetter cat sub)
    | some r =>
      if P.present.contains r.instr then .instr r.instr else .rejected (.notCompiledIn r.instr)

/-- R74: the command word, the category byte in its high half. -/
def commandWord (cat sub : Byte) : BitVec 16 := cat ++ sub

/-- R162: decoding of a 16-bit command word. -/
def decodeCommand (P : Params) (cw : BitVec 16) : Decoded :=
  decodeLetters P (cw.extractLsb' 8 8) (cw.extractLsb' 0 8)

/-- R70: the class of a received byte; the first test that holds wins. -/
def decodeByte (P : Params) (acc : Bool) (c : Byte) : Instr :=
  if c = P.soc then .rxSoc
  else if acc then (if c = P.eoc then .rxEoc else .rxData c)
  else .rxIdle c

/-- Decoding of any bytes: one received byte at the byte level (R70), two bytes as a command word in
the order received (R74). -/
def decode (P : Params) (acc : Bool) : List Byte → Decoded
  | [c] => .instr (decodeByte P acc c)
  | [cat, sub] => decodeCommand P (commandWord cat sub)
  | bs => .rejected (.badLength bs.length)

/-- The instruction read from a row's word of spec/opcode_table.json: a byte class has up to 8 bits
and is read while a frame is collected (`ACC = 1`); a command word has 16 (log entry 20). -/
def decodeTableWord (nbits w : Nat) : Option Instr :=
  let d :=
    if nbits ≤ 8 then decode .default true [BitVec.ofNat 8 w]
    else if nbits ≤ 16 then decode .default true [BitVec.ofNat 8 (w / 256), BitVec.ofNat 8 w]
    else .rejected (.badLength (nbits / 8))
  match d with
  | .instr i => some i
  | .rejected _ => none

/-- How many tokens a command needs, token 0 included (R82). -/
inductive Arity where
  | exactly (n : Nat)
  | atLeast (n : Nat)
deriving DecidableEq, Repr

/-- R164: whether a token count meets an arity. -/
def Arity.meets : Arity → Nat → Bool
  | .exactly n, k => k == n
  | .atLeast n, k => decide (n ≤ k)

/-- The least token count an arity admits. -/
def Arity.least : Arity → Nat
  | .exactly n => n
  | .atLeast n => n

/-- R82: the arity column. A byte class takes no tokens. -/
def Instr.arity : Instr → Arity
  | .fe | .fd | .fs | .fr => .exactly 1
  | .fb => .exactly 2
  | .fp => .atLeast 4
  | .se | .sc | .sd | .sg | .sl | .sr | .ss | .sv => .exactly 2
  | .st => .exactly 5
  | .s1 => .exactly 7
  | .gc | .gs | .ge | .gt | .gv => .exactly 1
  | .rxSoc | .rxEoc | .rxData _ | .rxIdle _ => .exactly 0

/-- The bytes that select an instruction, in the order received (R70, R74, R82). -/
def encode (P : Params) : Instr → List Byte
  | .fb => [0x46#8, 0x42#8]
  | .fd => [0x46#8, 0x44#8]
  | .fe => [0x46#8, 0x45#8]
  | .fp => [0x46#8, 0x50#8]
  | .fr => [0x46#8, 0x52#8]
  | .fs => [0x46#8, 0x53#8]
  | .s1 => [0x53#8, 0x31#8]
  | .sc => [0x53#8, 0x43#8]
  | .sd => [0x53#8, 0x44#8]
  | .se => [0x53#8, 0x45#8]
  | .sg => [0x53#8, 0x47#8]
  | .sl => [0x53#8, 0x4C#8]
  | .sr => [0x53#8, 0x52#8]
  | .ss => [0x53#8, 0x53#8]
  | .st => [0x53#8, 0x54#8]
  | .sv => [0x53#8, 0x56#8]
  | .gc => [0x47#8, 0x43#8]
  | .ge => [0x47#8, 0x45#8]
  | .gs => [0x47#8, 0x53#8]
  | .gt => [0x47#8, 0x54#8]
  | .gv => [0x47#8, 0x56#8]
  | .rxSoc => [P.soc]
  | .rxEoc => [P.eoc]
  | .rxData c => [c]
  | .rxIdle c => [c]

/-- R87: an uppercase hex digit. -/
def hexUpper (n : BitVec 4) : Byte :=
  if n ≤ 9#4 then 0x30#8 + n.setWidth 8 else 0x37#8 + n.setWidth 8

/-- R87: `hex2`, two uppercase hex digits, the high nibble first. -/
def hex2 (v : Byte) : List Byte := [hexUpper (v.extractLsb' 4 4), hexUpper (v.extractLsb' 0 4)]

/-- R87: the 8-bit sum a sender writes for a body, the start byte included. -/
def bodySum (P : Params) (body : List Byte) : Byte := body.foldl (· + ·) P.soc

/-- R87: the checksummed frame of a body, less its end byte: what the frame buffer then holds. -/
def frameBytes (P : Params) (body : List Byte) : List Byte :=
  P.soc :: body ++ asterisk :: hex2 (bodySum P body)

/-- R87: the checksummed frame of a body as sent. -/
def frameOf (P : Params) (body : List Byte) : List Byte := frameBytes P body ++ [P.eoc]

end Sys2Proof
end

