-- ==== Sys2Proof/Machine/State.lean ====
section
/-! DEFINITION. The state of the machine: the engine's registers (10_state.md), what the engine is in
the middle of, and the channels, the collaborator port and the host's pending actions around it. -/

namespace Sys2Proof
namespace Machine

/-- The two fixed service levels of `C_SET_SVC_LEVEL` (R204, R286). -/
inductive SvcLevel where
  | level1
  | level2
deriving DecidableEq, Repr

/-- R286: the 23 collaborator transactions with their arguments. -/
inductive CtlOp where
  /-- `C_ENABLE` -/
  | enable
  /-- `C_DISABLE` -/
  | disable
  /-- `C_SLEEP` -/
  | sleep
  /-- `C_RESET` -/
  | reset
  /-- `C_BACKLIGHT` -/
  | backlight (v : BitVec 8)
  /-- `C_PRINT` -/
  | print (a1 a2 : BitVec 8) (text : List Byte)
  /-- `C_SET_CAPACITY` -/
  | setCapacity (v : BitVec 8)
  /-- `C_SET_DIODE_CHK` -/
  | setDiodeChk (b : Bool)
  /-- `C_SET_GND_CHK` -/
  | setGndChk (b : Bool)
  /-- `C_SET_SVC_LEVEL` -/
  | setSvcLevel (l : SvcLevel)
  /-- `C_SET_AUTO_SVC` -/
  | setAutoSvc
  /-- `C_SET_RELAY_CHK` -/
  | setRelayChk (b : Bool)
  /-- `C_SET_SELFTEST` -/
  | setSelftest (b : Bool)
  /-- `C_SET_VENT_REQ` -/
  | setVentReq (b : Bool)
  /-- `C_TIMER_SET` -/
  | timerSet (h1 m1 h2 m2 : BitVec 8)
  /-- `C_TIMER_DISABLE` -/
  | timerDisable
  /-- `C_SET_TIME` -/
  | setTime (y mo d h mi sec : BitVec 8)
  /-- `C_GET_CAP_RANGE` -/
  | getCapRange
  /-- `C_GET_SETTINGS` -/
  | getSettings
  /-- `C_GET_STATE` -/
  | getState
  /-- `C_GET_TIME` -/
  | getTime
  /-- `C_GET_VERSION` -/
  | getVersion
  /-- `C_NOTIFY_QUERY` -/
  | notifyQuery
deriving DecidableEq, Repr

/-- R286: the results the collaborator may return. A transaction reads the fields its row of R286
declares. -/
structure Reply where
  /-- `s`, 0 for success -/
  status : BitVec 8
  /-- `lo` of `C_GET_CAP_RANGE` -/
  lo : BitVec 8
  /-- `hi` of `C_GET_CAP_RANGE` -/
  hi : BitVec 8
  /-- `cap` of `C_GET_SETTINGS` -/
  cap : BitVec 8
  /-- `flags` of `C_GET_SETTINGS` -/
  flags : BitVec 16
  /-- `st` of `C_GET_STATE` and of `C_NOTIFY_QUERY` -/
  st : BitVec 8
  /-- `el` of `C_GET_STATE`; its low `P_ELAPSED_W` bits are the value -/
  el : Nat
  /-- `txt` of `C_GET_TIME`, `ver` of `C_GET_VERSION` -/
  text : List Byte
  /-- `changed` of `C_NOTIFY_QUERY` -/
  changed : Bool
deriving DecidableEq, Repr

/-- R286: how a transaction ends. -/
inductive Answer where
  /-- It returns with these results. -/
  | returned (r : Reply)
  /-- It never returns: the engine is stuck. -/
  | never
  /-- It asserts the system reset instead of returning (`C_RESET` only, R183). `lost` marks which
  pending RX bytes the reset loses, the oldest first (R302). -/
  | resets (lost : List Bool)
deriving DecidableEq, Repr

/-- R6, R283, R285: what the host does next. -/
inductive HostAction where
  /-- Nothing: the engine takes one step. -/
  | run
  /-- Nothing until the cycle in progress has ended. -/
  | await
  /-- One byte arrives on the RX channel. -/
  | deliver (c : Byte)
  /-- `cycle(notifyEn)`. `hidden` is how many pending RX bytes `RxAvail()` does not report (R285). -/
  | strobe (notifyEn : Bool) (hidden : Nat)
  /-- The system reset is asserted between two engine steps; `lost` as in `Answer.resets`. -/
  | reset (lost : List Bool)
  /-- The system reset is asserted during the engine's next step, after `sent` of the TX bytes which
  that step writes are on the channel (R302). -/
  | resetDuring (sent : Nat) (lost : List Bool)
  /-- `cycle(notifyEn)`, with the system reset asserted during its notifier step, after `sent` of the
  notification's bytes are on the channel (R302). -/
  | strobeReset (notifyEn : Bool) (sent : Nat) (lost : List Bool)
deriving DecidableEq, Repr

/-- R270: the outcome classes of a frame. -/
inductive FrameClass where
  | ok
  | overflow
  | checksum
  | unknown
  | arity
  | arg
  | handlerFail
  | reset
deriving DecidableEq, Repr

/-- R270: the class codes, labels of the event history that are never transmitted. -/
def FrameClass.code : FrameClass → Nat
  | .ok => 0
  | .overflow => 1
  | .checksum => 2
  | .unknown => 3
  | .arity => 4
  | .arg => 5
  | .handlerFail => 6
  | .reset => 7

/-- R277: an entry of the event history: the class and `FB[0..LEN)` as it stood. -/
structure FrameEvent where
  cls : FrameClass
  bytes : List Byte
deriving DecidableEq, Repr

/-- What the engine does next inside a cycle (log entry 8). -/
inductive Phase where
  /-- Read the next byte of the batch, or end the cycle (R102, R113). -/
  | receive
  /-- Dispatch the valid frame in the buffer (R110, R160). -/
  | dispatch
  /-- Send the response of the dispatched frame, whose class is `cls` (R110, R250). -/
  | respond (cls : FrameClass)
deriving DecidableEq, Repr

/-- R27: one token slot, the indices `TS[k]` and `TE[k]` into the frame buffer. -/
structure Slot where
  ts : Nat
  te : Nat
deriving DecidableEq, Repr

/-- How the machine stops. -/
inductive Fault where
  /-- Raised by every transaction whose answer is `Answer.never`: R13, R286's stuck engine. Safe: the
  spec gives no further step (log entry 14). -/
  | collaboratorHangs
  /-- Raised by an access to a frame-buffer index at or past `P_BUF_LEN` or to a token slot that does
  not exist. Safe: no state that meets `State.Inv` raises it (log entry 7). -/
  | indexOutOfRange
deriving DecidableEq, Repr

/-- Why a run has no meaning. -/
inductive Refusal where
  /-- An instruction with no meaning yet, by its mnemonic. Safe. -/
  | notModelled (mnemonic : String)
  /-- Raised by a strobe of `cycle` while `BUSY = 1` (R282, D31). Safe: the spec refuses the run. -/
  | reentrantCycle
  /-- Raised by every step of a machine whose build parameters break R71 or R303 (I-ENV6). Safe: the
  spec refuses the build (log entry 4). -/
  | badParameters
  /-- Raised by `GT` and `GV` where the collaborator returns status 0 and a text with a sentinel byte
  (D26, I-ENV2). Safe: the spec refuses the run (log entry 15). -/
  | textHoldsSentinel
  /-- Raised by a transaction other than `C_RESET` that is answered by a system reset, which R286
  forbids. Safe: the same reset can come from the host (log entry 16). -/
  | resetNotByReset
  /-- Raised by a read of a byte that `RxAvail()` promised and the RX channel does not hold (I-ENV5).
  Safe: no state that meets `State.Inv` raises it (log entry 21). -/
  | rxUnderrun
deriving DecidableEq, Repr

/-- The whole machine. -/
structure State where
  /-- The build's parameters (R7). No step writes them. -/
  cfg : Params
  /-- `ACC`, R21: whether a frame is being collected. -/
  acc : Bool
  /-- `LEN`, R22: how many bytes of the frame are stored. -/
  len : Nat
  /-- `FB`, R23: the frame buffer, in the canonical form `Memory.wf`. -/
  fb : List Host.Cell
  /-- `ECHO`, R24. -/
  echo : Bool
  /-- `BUSY`, R26. -/
  busy : Bool
  /-- `TCNT`, R27: the token count. -/
  tcnt : Nat
  /-- `TS[k]` and `TE[k]`, R27. -/
  slots : List Slot
  /-- `SCAN_END`, R28. -/
  scanEnd : Nat
  /-- `SUM`, R29. -/
  sum : BitVec 8
  /-- `DECL`, R29. -/
  decl : BitVec 8
  /-- `STARSEEN`, R29. -/
  starSeen : Bool
  /-- `RB`, R30: the response buffer. -/
  rb : List Byte
  /-- `RLEN`, R30. -/
  rlen : Nat
  /-- `PFLAG`, R31. -/
  pflag : Bool
  /-- `STATUS`, R32. -/
  status : BitVec 8
  /-- What the engine does next while `BUSY = 1` (log entry 8). -/
  phase : Phase
  /-- How many bytes of the sampled batch are still to be read (R102, log entry 8). -/
  left : Nat
  /-- The RX channel, the oldest byte first (R50, R285). -/
  rx : List Byte
  /-- The TX channel: every byte written, the oldest first (R50, R59, R312). -/
  tx : List Byte
  /-- The collaborator transactions issued, the oldest first (R286, R312). -/
  ctl : List CtlOp
  /-- The collaborator's next answers (log entry 12). -/
  answers : List Answer
  /-- How many free answers were drawn (the model's own field, log entry 13). -/
  draws : Nat
  /-- The host's next actions (log entry 9). -/
  host : List HostAction
  /-- The event history (R277, log entry 18). -/
  events : List FrameEvent
deriving DecidableEq, Repr

/-- R39, R300, R301: the reset state of a build. A register the spec leaves unspecified is 0 in
every bit (log entry 5); the channels and the lists around the block are empty. -/
def State.resetOf (P : Params) : State where
  cfg := P
  acc := false
  len := 0
  fb := []
  echo := false
  busy := false
  tcnt := 0
  slots := List.replicate P.maxTokens ⟨0, 0⟩
  scanEnd := 0
  sum := 0#8
  decl := 0#8
  starSeen := false
  rb := List.replicate P.respLen nul
  rlen := 0
  pflag := false
  status := 0#8
  phase := .receive
  left := 0
  rx := []
  tx := []
  ctl := []
  answers := []
  draws := 0
  host := []
  events := []

/-- The machine right after reset, built with the default parameters (log entry 2). -/
def State.reset : State := State.resetOf Params.default

end Machine
end Sys2Proof
end

