-- ==== Sys2Proof/Machine/Ops.lean ====
section
/-! DEFINITION. The operations every rule is written with: the frame buffer, the channels, the
collaborator port, abandoning a frame (the nearest thing to taking an exception) and system reset. -/

namespace Sys2Proof
namespace Machine

/-- What a step of this machine answers. -/
abbrev Result := Host.Outcome State Fault Refusal

/-! ### The frame buffer as a sparse list of cells -/

/-- The canonical form: addresses strictly rising and no cell that holds what an unlisted address
reads as (log entry 6). -/
abbrev Memory.wf (m : List Host.Cell) : Prop :=
  m.Pairwise (fun a b => a.1 < b.1) ∧ ∀ c ∈ m, c.2 ≠ nul

/-- One byte of a memory; an unlisted address reads as 0 (log entry 6). -/
def Memory.read : List Host.Cell → Nat → Byte
  | [], _ => nul
  | c :: m, a => if c.1 = a then c.2 else Memory.read m a

/-- A memory with one byte written, in canonical form again. -/
def Memory.write : List Host.Cell → Nat → Byte → List Host.Cell
  | [], a, v => if v = nul then [] else [(a, v)]
  | c :: m, a, v =>
    if a < c.1 then (if v = nul then c :: m else (a, v) :: c :: m)
    else if a = c.1 then (if v = nul then m else (a, v) :: m)
    else c :: Memory.write m a v

/-- R11: `FB[i]` (`MemRead(i, 1)`). -/
def State.fbByte (s : State) (i : Nat) : Byte := Memory.read s.fb i

/-- R11, R55: `FB[i] <- v` (`MemWrite(i, 1, v)`). An index past the capacity does not exist (log
entry 7). -/
def State.storeFb (s : State) (i : Nat) (v : Byte) : Result :=
  if i < s.cfg.bufLen then .next { s with fb := Memory.write s.fb i v } else .fault .indexOutOfRange

/-- `FB[a..b)`. -/
def State.slice (s : State) (a b : Nat) : List Byte :=
  (List.range (b - a)).map (fun j => s.fbByte (a + j))

/-- R277: `FB[0..LEN)`. -/
def State.liveBytes (s : State) : List Byte := s.slice 0 s.len

/-! ### Token slots -/

/-- R133: `TS[k] <- i`, where slot `k` exists. -/
def setTs (maxTokens k i : Nat) (slots : List Slot) : List Slot :=
  if k < maxTokens then slots.modify k (fun x => { x with ts := i }) else slots

/-- R133: `TE[k] <- i`, where slot `k` exists. -/
def setTe (maxTokens k i : Nat) (slots : List Slot) : List Slot :=
  if k < maxTokens then slots.modify k (fun x => { x with te := i }) else slots

/-- R27: slot `k`. -/
def State.slot (s : State) (k : Nat) : Slot := s.slots.getD k ⟨0, 0⟩

/-- Whether slot `k` exists and lies inside the frame buffer (log entry 7). -/
def State.slotInRange (s : State) (k : Nat) : Bool :=
  decide (k < s.slots.length) && decide ((s.slot k).ts ≤ s.cfg.bufLen)
    && decide ((s.slot k).te ≤ s.cfg.bufLen)

/-! ### Frame end, abandon, reset -/

/-- R277: adds an event for the frame in the buffer. -/
def State.record (s : State) (cls : FrameClass) : State :=
  { s with events := s.events ++ [⟨cls, s.liveBytes⟩] }

/-- R111: `FrameReset()`. -/
def State.frameReset (s : State) : State := { s with acc := false, len := 0 }

/-- R280: `Abandon(cause)`. Nothing is saved, no mode changes and nothing is sent; `OVERFLOW` is its
only cause. There is no return from it (R281). -/
def State.abandon (s : State) (cause : FrameClass) : State := (s.record cause).frameReset

/-- R302: the RX bytes left after a reset loses the marked ones. A byte past the marks is kept. -/
def keepPending : List Bool → List Byte → List Byte
  | lost :: marks, c :: rx => if lost then keepPending marks rx else c :: keepPending marks rx
  | _, rx => rx

/-- R283, R300, R302: the system reset. Every register takes its reset value; what is outside the
block stays, but for the RX bytes the reset loses (log entry 17). -/
def State.systemReset (s : State) (lost : List Bool) : State :=
  { State.resetOf s.cfg with
    rx := keepPending lost s.rx
    tx := s.tx
    ctl := s.ctl
    answers := s.answers
    draws := s.draws
    host := s.host
    events := s.events ++ [⟨.reset, s.liveBytes⟩] }

/-! ### The channels -/

/-- R12: `TxWrite` of each byte in order. -/
def State.txWrite (s : State) (bs : List Byte) : State := { s with tx := s.tx ++ bs }

/-! ### The collaborator port -/

/-- R286: a free answer, the one drawn after `n` others (log entry 13). Its text keeps the limit of
D26: no sentinel byte. -/
def freeReply (P : Params) (n : Nat) : Reply where
  status := Config.freeStatus n
  lo := Config.freeLo n
  hi := Config.freeHi n
  cap := Config.freeCap n
  flags := Config.freeFlags n
  st := Config.freeState n
  el := Config.freeElapsed n
  text := (Config.freeText n).filter (fun c => !P.isSentinel c)
  changed := Config.freeChanged n

/-- R286: whether a transaction returns a text that is sent on. -/
def CtlOp.returnsText : CtlOp → Bool
  | .getTime | .getVersion => true
  | _ => false

/-- How a transaction ends, after its contract is checked. -/
inductive Ending where
  /-- It returns. -/
  | reply (r : Reply)
  /-- It never returns. -/
  | hangs
  /-- It resets the system. -/
  | resets (lost : List Bool)
  /-- The collaborator breaks its contract; the run has no meaning. -/
  | broken (why : Refusal)
deriving DecidableEq, Repr

/-- R286: the collaborator's answer to `op`: the next of the given ones, or a free one where none is
left (log entry 12). Whether a free answer to `C_RESET` returns or resets the system is free too
(R183, D21). -/
def State.answerTo (s : State) (op : CtlOp) : Ending :=
  match s.answers with
  | [] =>
    if op = .reset ∧ Config.freeResets s.draws = true then .resets (Config.freeLost s.draws)
    else .reply (freeReply s.cfg s.draws)
  | .returned r :: _ =>
    if op.returnsText && r.status == 0#8 && s.cfg.holdsSentinel r.text then
      .broken .textHoldsSentinel
    else .reply r
  | .never :: _ => .hangs
  | .resets lost :: _ => if op = .reset then .resets lost else .broken .resetNotByReset

/-- The state after `op` is issued and answered: the transaction is on record and one answer used. -/
def State.called (s : State) (op : CtlOp) : State :=
  { s with
    ctl := s.ctl ++ [op]
    answers := s.answers.tail
    draws := if s.answers = [] then s.draws + 1 else s.draws }

/-- R12, R286: `Ctl(op, ...)`; `k` goes on with the results. -/
def State.transact (s : State) (op : CtlOp) (k : Reply → State → Result) : Result :=
  match s.answerTo op with
  | .reply r => k r (s.called op)
  | .hangs => .fault .collaboratorHangs
  | .resets lost => .next ((s.called op).systemReset lost)
  | .broken why => .refused why

/-! ### Running a handler -/

/-- R110, R165: the handler is done: `STATUS` is written and the response is next. -/
def State.concluded (s : State) (status : BitVec 8) (cls : FrameClass) : State :=
  { s with status := status, phase := .respond cls }

/-- R270: the class of a frame whose handler ran: `OK`, or `HANDLER_FAIL` on a non-zero status. -/
def handlerClass (status : BitVec 8) : FrameClass := if status = 0#8 then .ok else .handlerFail

/-- R276: the end of a handler whose transaction returned `status`. -/
def State.finished (s : State) (status : BitVec 8) : State := s.concluded status (handlerClass status)

/-- R164: the arity check that stands before every handler. `reads` is how many argument tokens the
handler reads; their slots must exist (log entry 7). -/
def State.handle (s : State) (arity : Arity) (reads : Nat) (handler : State → Result) : Result :=
  if arity.meets s.tcnt then
    if (List.range reads).all (fun j => s.slotInRange (j + 1)) then handler s
    else .fault .indexOutOfRange
  else .next (s.concluded 1#8 .arity)

/-- The handlers that issue one transaction and take its status as theirs (R180 and the like). -/
def State.command (s : State) (op : CtlOp) : Result :=
  s.transact op (fun r t => .next (t.finished r.status))

end Machine
end Sys2Proof
end

