-- ==== Sys2Proof/Machine/Operands.lean ====
section
/-! DEFINITION. Every operand form of R76 and every output format of 46_response.md section 3. -/

namespace Sys2Proof
namespace Machine

/-- R130: a read of the frame in which every position at or past the end is the terminator. -/
def State.byteAt (s : State) (j : Nat) : Byte := if j < s.len then s.fbByte j else nul

/-- R139: `dtou`, 8-bit decimal parse without any check. -/
def dtou (bs : List Byte) : BitVec 8 := bs.foldl (fun u c => 10#8 * u + (c - 0x30#8)) 0#8

/-- R140: the value of a hex digit; 0 for a byte that is none. -/
def hv (c : Byte) : BitVec 8 :=
  if 0x30#8 ≤ c ∧ c ≤ 0x39#8 then c - 0x30#8
  else if 0x41#8 ≤ c ∧ c ≤ 0x46#8 then c - 0x37#8
  else 0#8

/-- R140: `htou`, the first digit high. -/
def htou (d0 d1 : Byte) : BitVec 8 := 16#8 * hv d0 + hv d1

/-- R166: `arg k`, the text of token `k`. -/
def State.arg (s : State) (k : Nat) : List Byte := s.slice (s.slot k).ts (s.slot k).te

/-- R166: `D(k)`, the decimal value of token `k`. -/
def State.decArg (s : State) (k : Nat) : BitVec 8 := dtou (s.arg k)

/-- R199: `bool(v)`. -/
def boolOf (v : BitVec 8) : Bool := v != 0#8

/-- R199: `first(k)`, the first byte of token `k`, `NUL` for an empty one. -/
def State.firstByte (s : State) (k : Nat) : Byte :=
  if (s.slot k).ts < (s.slot k).te then s.fbByte (s.slot k).ts else nul

/-- R141: `textFrom(k)`, the frame's bytes from token `k` to the scan's end. -/
def State.textFrom (s : State) (k : Nat) : List Byte := s.slice (s.slot k).ts s.scanEnd

/-- R161: whether token 0 has a second byte. -/
def State.hasSubLetter (s : State) : Bool := decide (2 ≤ (s.slot 0).te - (s.slot 0).ts)

/-- R161: the command word `CW`. -/
def State.cw (s : State) : BitVec 16 :=
  commandWord (s.byteAt 1) (if s.hasSubLetter then s.fbByte 2 else nul)

/-- R254: the decimal digits of `v`, put before `acc`. -/
def decDigits : Nat → Nat → List Byte → List Byte
  | 0, _, acc => acc
  | fuel + 1, v, acc =>
    let d := BitVec.ofNat 8 (0x30 + v % 10) :: acc
    if v / 10 = 0 then d else decDigits fuel (v / 10) d

/-- R254: `dec(v)`. A number has no more decimal digits than bits, which bounds the recursion. -/
def dec (v : Nat) : List Byte := decDigits (Nat.log2 v + 1) v []

/-- R255: one lowercase hex digit. -/
def hexLower (n : BitVec 4) : Byte :=
  if n ≤ 9#4 then 0x30#8 + n.setWidth 8 else 0x61#8 + (n.setWidth 8 - 10#8)

/-- R255: `hex4(v)`. -/
def hex4 (v : BitVec 16) : List Byte :=
  [hexLower (v.extractLsb' 12 4), hexLower (v.extractLsb' 8 4),
   hexLower (v.extractLsb' 4 4), hexLower (v.extractLsb' 0 4)]

/-- R232, R286: `el` as a value of `P_ELAPSED_W` bits. -/
def elapsed (P : Params) (r : Reply) : Nat := r.el % 2 ^ P.elapsedW

end Machine
end Sys2Proof
end

