-- ==== Sys2Proof/Machine/Flags.lean ====
section
/-! DEFINITION. The derived predicates of R33 and the flags' writers that are not one instruction's. -/

namespace Sys2Proof
namespace Machine

/-- R33, R136: `VALID`. `STARSEEN` takes no part. -/
def State.valid (s : State) : Bool := s.sum == s.decl

/-- R33, R251: `OK`, the response verdict after a dispatch. -/
def State.okBit (s : State) : Bool := s.status == 0#8

/-- R160: every dispatch starts by clearing the payload. -/
def State.clearPayload (s : State) : State := { s with pflag := false, rlen := 0 }

/-- R256: `SetPayload(p)`, which keeps the first `P_RESP_LEN` bytes and sets `PFLAG`. -/
def State.setPayload (s : State) (p : List Byte) : State :=
  let n := min p.length s.cfg.respLen
  { s with rlen := n, rb := p.take n ++ s.rb.drop n, pflag := true }

end Machine
end Sys2Proof
end

