-- ==== Sys2Proof/Machine/Tokenizer.lean ====
section
/-! DEFINITION. The tokenizer and checksum validator (41_tokenizer.md R130 to R138). -/

namespace Sys2Proof
namespace Machine

/-- What the scan of R133 carries along: its index and the registers it writes. -/
structure Scan where
  /-- The index `i` of R133. -/
  i : Nat
  sum : BitVec 8
  decl : BitVec 8
  starSeen : Bool
  tcnt : Nat
  slots : List Slot
deriving DecidableEq, Repr

/-- R131, R132: the scan's start. -/
def State.scanStart (s : State) : Scan where
  i := 2
  sum := s.cfg.soc + s.byteAt 1
  decl := 0#8
  starSeen := false
  tcnt := 1
  slots := setTs s.cfg.maxTokens 0 1 s.slots

/-- R133: the scan loop. `LEN - 2` rounds are enough, because each moves the index by one. -/
def State.scanLoop (s : State) : Nat → Scan → Scan
  | 0, t => t
  | fuel + 1, t =>
    let c := s.fbByte t.i
    if t.i < s.len ∧ c ≠ nul then
      if c = sp then
        s.scanLoop fuel
          { t with
            sum := t.sum + sp
            slots :=
              setTs s.cfg.maxTokens t.tcnt (t.i + 1)
                (setTe s.cfg.maxTokens (t.tcnt - 1) t.i t.slots)
            tcnt := t.tcnt + 1
            i := t.i + 1 }
      else if c = asterisk then
        { t with starSeen := true, decl := htou (s.byteAt (t.i + 1)) (s.byteAt (t.i + 2)) }
      else s.scanLoop fuel { t with sum := t.sum + c, i := t.i + 1 }
    else t

/-- R133: the scan of the whole frame; none where the body is empty (R142). -/
def State.scan (s : State) : Scan :=
  if 2 ≤ s.len then s.scanLoop (s.len - 2) s.scanStart else s.scanStart

/-- R133: `SCAN_END`. -/
def State.scanStop (s : State) : Nat := if 2 ≤ s.len then s.scan.i else 1

/-- R110, R131 to R137: `Tokenize()`. It writes no byte of the frame buffer (R64). -/
def State.tokenize (s : State) : State :=
  { s with
    tcnt := s.scan.tcnt
    slots := setTe s.cfg.maxTokens (s.scan.tcnt - 1) s.scanStop s.scan.slots
    scanEnd := s.scanStop
    sum := s.scan.sum
    decl := s.scan.decl
    starSeen := s.scan.starSeen }

end Machine
end Sys2Proof
end

