-- ==== Sys2Proof/Machine/Response.lean ====
section
/-! DEFINITION. The frames the engine sends: responses (R250) and notifications (R78, R101). -/

namespace Sys2Proof
namespace Machine

/-- R77, R250: the bytes of a response frame. -/
def responseBytes (P : Params) (okbit : Bool) (payload : List Byte) : List Byte :=
  P.soc :: (if okbit then okText else nkText) ++ payload ++ [P.eoc]

/-- R252: the payload that goes out: only on success and only where one is present. -/
def State.payload (s : State) (okbit : Bool) : List Byte :=
  if okbit && s.pflag then s.rb.take s.rlen else []

/-- R250: `EmitResponse(okbit)`. -/
def State.emitResponse (s : State) (okbit : Bool) : State :=
  s.txWrite (responseBytes s.cfg okbit (s.payload okbit))

/-- R78: the bytes of a state-transition notification. -/
def notificationBytes (P : Params) (st : BitVec 8) : List Byte :=
  P.soc :: stText ++ dec st.toNat ++ [P.eoc]

end Machine
end Sys2Proof
end

