-- ==== Sys2Proof/Machine/Assembler.lean ====
section
/-! DEFINITION. The meanings of the four byte classes (40_assembler.md R104 to R111). The echo of R103
comes before them, in Machine/Cycle.lean. -/

namespace Sys2Proof
namespace Machine

/-- RX.SOC, R104: start or restart a frame. -/
def execRxSoc (s : State) : Result :=
  ({ s with len := 1, acc := true } : State).storeFb 0 s.cfg.soc

/-- R110: frame completion up to the verdict. A frame that fails its checksum is reset and answered at
once (R272); a valid one is dispatched next. -/
def State.frameComplete (s : State) : State :=
  let t := s.tokenize
  if t.valid then { t with phase := .dispatch }
  else ((t.record .checksum).frameReset).emitResponse false

/-- RX.EOC: complete the frame (R105), or abandon it where the terminator has no room (R106). -/
def execRxEoc (s : State) : Result :=
  if s.len < s.cfg.bufLen then .next s.frameComplete else .next (s.abandon .overflow)

/-- RX.DATA: append the byte (R107), or abandon the frame where there is no room (R108). -/
def execRxData (c : Byte) (s : State) : Result :=
  if s.len < s.cfg.bufLen then ({ s with len := s.len + 1 } : State).storeFb s.len c
  else .next (s.abandon .overflow)

/-- RX.IDLE, R109: discard the byte. -/
def execRxIdle (_c : Byte) (s : State) : Result := .next s

end Machine
end Sys2Proof
end

