-- ==== Sys2Proof/Machine/Function.lean ====
section
/-! DEFINITION. The meanings of the Function commands (43_function_cmds.md R180 to R185). -/

namespace Sys2Proof
namespace Machine

/-- FE, R180: enable charging. -/
def execFe (s : State) : Result := s.handle (Instr.arity .fe) 0 (fun t => t.command .enable)

/-- FD, R181: disable charging. -/
def execFd (s : State) : Result := s.handle (Instr.arity .fd) 0 (fun t => t.command .disable)

/-- FS, R182: the charger's sleep; the engine goes on (R288). -/
def execFs (s : State) : Result := s.handle (Instr.arity .fs) 0 (fun t => t.command .sleep)

/-- FR, R183: watchdog reset. The transaction returns, or it resets the system and no response is
sent; `State.transact` takes the branch the collaborator's answer names. -/
def execFr (s : State) : Result := s.handle (Instr.arity .fr) 0 (fun t => t.command .reset)

/-- FB, R184: set display backlight. -/
def execFb (s : State) : Result :=
  s.handle (Instr.arity .fb) 1 (fun t => t.command (.backlight (t.decArg 1)))

/-- FP, R185: print text at a position. The text runs from token 3 to the scan's end. -/
def execFp (s : State) : Result :=
  s.handle (Instr.arity .fp) 3 (fun t =>
    if t.scanEnd ≤ t.cfg.bufLen then
      t.command (.print (t.decArg 1) (t.decArg 2) (t.textFrom 3))
    else .fault .indexOutOfRange)

end Machine
end Sys2Proof
end

