-- ==== Sys2Proof/Machine/Get.lean ====
section
/-! DEFINITION. The meanings of the Get commands (45_get_cmds.md R230 to R234). -/

namespace Sys2Proof
namespace Machine

/-- R169: a query's handler: one transaction, and the payload only on status 0. -/
def State.query (s : State) (op : CtlOp) (payload : Reply → List Byte) : Result :=
  s.transact op (fun r t =>
    .next ((if r.status = 0#8 then t.setPayload (payload r) else t).finished r.status))

/-- GC, R230: current-capacity range, minimum then maximum. -/
def execGc (s : State) : Result :=
  s.handle (Instr.arity .gc) 0 (fun t =>
    t.query .getCapRange (fun r => dec r.lo.toNat ++ [sp] ++ dec r.hi.toNat))

/-- GS, R231: aggregate settings, the capacity and the flags word in hex. -/
def execGs (s : State) : Result :=
  s.handle (Instr.arity .gs) 0 (fun t =>
    t.query .getSettings (fun r => dec r.cap.toNat ++ [sp] ++ hex4 r.flags))

/-- GE, R232: current state and elapsed charge time. -/
def execGe (s : State) : Result :=
  s.handle (Instr.arity .ge) 0 (fun t =>
    t.query .getState (fun r => dec r.st.toNat ++ [sp] ++ dec (elapsed t.cfg r)))

/-- GT, R233: clock read, the collaborator's text as it is. -/
def execGt (s : State) : Result :=
  s.handle (Instr.arity .gt) 0 (fun t => t.query .getTime (fun r => r.text))

/-- GV, R234: firmware version, then the protocol version suffix. -/
def execGv (s : State) : Result :=
  s.handle (Instr.arity .gv) 0 (fun t =>
    t.query .getVersion (fun r => r.text ++ [sp] ++ t.cfg.versionSuffix))

end Machine
end Sys2Proof
end

