-- ==== Sys2Proof/Machine/Set.lean ====
section
/-! DEFINITION. The meanings of the Set commands (44_set_cmds.md R199 to R209). -/

namespace Sys2Proof
namespace Machine

/-- SE, R200: echo on or off. No transaction; it cannot fail once its arity holds. -/
def execSe (s : State) : Result :=
  s.handle (Instr.arity .se) 1 (fun t =>
    .next (({ t with echo := boolOf (t.decArg 1) } : State).finished 0#8))

/-- SC, R201: set current capacity limit. -/
def execSc (s : State) : Result :=
  s.handle (Instr.arity .sc) 1 (fun t => t.command (.setCapacity (t.decArg 1)))

/-- SD, R202: diode check enable. -/
def execSd (s : State) : Result :=
  s.handle (Instr.arity .sd) 1 (fun t => t.command (.setDiodeChk (boolOf (t.decArg 1))))

/-- SG, R203: ground check enable. -/
def execSg (s : State) : Result :=
  s.handle (Instr.arity .sg) 1 (fun t => t.command (.setGndChk (boolOf (t.decArg 1))))

/-- SL, R204: service level `'1'`, `'2'`, or automatic detection `'A'`; any other letter is the `ARG`
failure, with no transaction (R275). -/
def execSl (s : State) : Result :=
  s.handle (Instr.arity .sl) 1 (fun t =>
    if t.firstByte 1 = 0x31#8 then t.command (.setSvcLevel .level1)
    else if t.firstByte 1 = 0x32#8 then t.command (.setSvcLevel .level2)
    else if t.firstByte 1 = 0x41#8 then t.command .setAutoSvc
    else .next (t.concluded 1#8 .arg))

/-- SR, R205: stuck-relay check enable. -/
def execSr (s : State) : Result :=
  s.handle (Instr.arity .sr) 1 (fun t => t.command (.setRelayChk (boolOf (t.decArg 1))))

/-- SS, R206: self-test enable. -/
def execSs (s : State) : Result :=
  s.handle (Instr.arity .ss) 1 (fun t => t.command (.setSelftest (boolOf (t.decArg 1))))

/-- ST, R207: delay-timer schedule; all four parsed values zero disable the timer. -/
def execSt (s : State) : Result :=
  s.handle (Instr.arity .st) 4 (fun t =>
    if t.decArg 1 = 0#8 ∧ t.decArg 2 = 0#8 ∧ t.decArg 3 = 0#8 ∧ t.decArg 4 = 0#8 then
      t.command .timerDisable
    else t.command (.timerSet (t.decArg 1) (t.decArg 2) (t.decArg 3) (t.decArg 4)))

/-- SV, R208: vent-required enable. -/
def execSv (s : State) : Result :=
  s.handle (Instr.arity .sv) 1 (fun t => t.command (.setVentReq (boolOf (t.decArg 1))))

/-- S1, R209: clock set: year, month, day, hour, minute, second. -/
def execS1 (s : State) : Result :=
  s.handle (Instr.arity .s1) 6 (fun t =>
    t.command (.setTime (t.decArg 1) (t.decArg 2) (t.decArg 3) (t.decArg 4) (t.decArg 5) (t.decArg 6)))

end Machine
end Sys2Proof
end

