-- ==== Sys2Proof/Machine/Dispatch.lean ====
section
/-! DEFINITION. The dispatch: one arm per instruction, one call of its meaning. -/

namespace Sys2Proof
namespace Machine

/-- What an instruction does to a state. -/
def exec (i : Instr) (s : State) : Host.Outcome State Fault Refusal :=
  match i with
  | .fb => Sys2Proof.Machine.execFb s
  | .fd => Sys2Proof.Machine.execFd s
  | .fe => Sys2Proof.Machine.execFe s
  | .fp => Sys2Proof.Machine.execFp s
  | .fr => Sys2Proof.Machine.execFr s
  | .fs => Sys2Proof.Machine.execFs s
  | .s1 => Sys2Proof.Machine.execS1 s
  | .sc => Sys2Proof.Machine.execSc s
  | .sd => Sys2Proof.Machine.execSd s
  | .se => Sys2Proof.Machine.execSe s
  | .sg => Sys2Proof.Machine.execSg s
  | .sl => Sys2Proof.Machine.execSl s
  | .sr => Sys2Proof.Machine.execSr s
  | .ss => Sys2Proof.Machine.execSs s
  | .st => Sys2Proof.Machine.execSt s
  | .sv => Sys2Proof.Machine.execSv s
  | .gc => Sys2Proof.Machine.execGc s
  | .ge => Sys2Proof.Machine.execGe s
  | .gs => Sys2Proof.Machine.execGs s
  | .gt => Sys2Proof.Machine.execGt s
  | .gv => Sys2Proof.Machine.execGv s
  | .rxSoc => Sys2Proof.Machine.execRxSoc s
  | .rxEoc => Sys2Proof.Machine.execRxEoc s
  | .rxData c => Sys2Proof.Machine.execRxData c s
  | .rxIdle c => Sys2Proof.Machine.execRxIdle c s

end Machine
end Sys2Proof
end

