-- ==== Sys2Proof/Machine/Cycle.lean ====
section
/-! DEFINITION. The engine's steps and the host's actions (40_assembler.md R100 to R103, R110, R113),
and where an instruction is placed so that the next step runs it. -/

namespace Sys2Proof
namespace Machine

/-- R101: the notification frame goes out if the collaborator reports a change. -/
def State.notify (s : State) (r : Reply) : State :=
  if r.changed then s.txWrite (notificationBytes s.cfg r.st) else s

/-- R102: the batch begins with the number of bytes the RX channel reports, sampled once. -/
def State.beginBatch (s : State) (hidden : Nat) : State :=
  { s with phase := .receive, left := s.rx.length - hidden }

/-- R100, R101, R102: the start of `cycle(notify_en)`. -/
def State.startCycle (s : State) (notifyEn : Bool) (hidden : Nat) : Result :=
  if s.busy then .refused .reentrantCycle
  else if notifyEn then
    ({ s with busy := true } : State).transact .notifyQuery
      (fun r t => .next ((t.notify r).beginBatch hidden))
  else .next (({ s with busy := true } : State).beginBatch hidden)

/-- R103: the echo copy of a received byte. -/
def State.mirror (s : State) (c : Byte) : State := if s.echo then s.txWrite [c] else s

/-- R102, R103, R113: read the next byte of the batch, echo it and run its class; or end the cycle. -/
def State.receiveStep (s : State) : Result :=
  match s.left, s.rx with
  | 0, _ => .next { s with busy := false }
  | _ + 1, [] => .refused .rxUnderrun
  | n + 1, c :: rx =>
    exec (decodeByte s.cfg s.acc c) (({ s with left := n, rx := rx } : State).mirror c)

/-- R160 to R165: dispatch the valid frame: clear the payload, look the command word up, and run the
command; an unrecognised word fails with no side effect (R163). -/
def State.dispatchStep (s : State) : Result :=
  if s.hasSubLetter && decide (s.cfg.bufLen ≤ 2) then .fault .indexOutOfRange
  else
    match decodeCommand s.cfg s.cw with
    | .instr i => exec i s.clearPayload
    | .rejected _ => .next (s.clearPayload.concluded 1#8 .unknown)

/-- R110, R250: send the response, then reset the frame. -/
def State.respondStep (s : State) (cls : FrameClass) : State :=
  { ((s.emitResponse s.okBit).record cls).frameReset with phase := .receive }

/-- R6: one step of the engine. Outside a cycle it takes none (R301). -/
def State.engineStep (s : State) : Result :=
  if s.busy then
    match s.phase with
    | .receive => s.receiveStep
    | .dispatch => s.dispatchStep
    | .respond cls => .next (s.respondStep cls)
  else .next s

/-- R302: a state in which only `n` of the TX bytes after the first `before` were sent. -/
def State.cutTx (s : State) (before n : Nat) : State := { s with tx := s.tx.take (before + n) }

/-- R302: a step with the outcome `r` that a system reset cuts short, when `sent` of the bytes it writes
to a channel of `before` bytes are out. DESIGN CHOICE (log entry 24): R270 and R277 are silent on the
events then; the cut step's own event stays, as if the step had completed, and RESET is added. -/
def cutShort (before sent : Nat) (lost : List Bool) (r : Result) : Result :=
  match r with
  | .next t => .next ((t.cutTx before sent).systemReset lost)
  | .fault f => .fault f
  | .refused f => .refused f

/-- One step of the machine: the host's next action, or else one step of the engine (log entry 9). -/
def State.hostStep (s : State) : Result :=
  match s.host with
  | [] => s.engineStep
  | .run :: rest => ({ s with host := rest } : State).engineStep
  | .await :: rest => if s.busy then s.engineStep else .next { s with host := rest }
  | .deliver c :: rest => .next { s with host := rest, rx := s.rx ++ [c] }
  | .strobe notifyEn hidden :: rest => ({ s with host := rest } : State).startCycle notifyEn hidden
  | .reset lost :: rest => .next (({ s with host := rest } : State).systemReset lost)
  | .resetDuring sent lost :: rest =>
    cutShort s.tx.length sent lost ({ s with host := rest } : State).engineStep
  | .strobeReset notifyEn sent lost :: rest =>
    cutShort s.tx.length sent lost (({ s with host := rest } : State).startCycle notifyEn 0)

/-- The frame buffer that holds `bs` from index 0 on. -/
def frameOfBytes (bs : List Byte) : List Host.Cell :=
  (bs.zipIdx).foldl (fun m c => Memory.write m c.2 c.1) []

/-- A received byte placed as the only one of the batch in progress, while a frame is collected (the
byte classes of decodeTableWord; log entry 20). -/
def State.placeByte (s : State) (c : Byte) : State :=
  { s with
    acc := true, len := 1, fb := frameOfBytes [s.cfg.soc]
    busy := true, phase := .receive, left := 1, rx := [c], host := [] }

/-- A command word placed as a completed, tokenized frame about to be dispatched. Its arguments are
empty tokens, as many as its arity asks for, so every decimal operand is 0 (log entry 20). -/
def State.placeCommand (s : State) (cat sub : Byte) (tokens : Nat) : State :=
  let bs := [s.cfg.soc, cat, sub] ++ List.replicate (tokens - 1) sp
  let t : State :=
    { s with
      acc := true, len := bs.length, fb := frameOfBytes bs
      busy := true, phase := .dispatch, host := [] }
  t.tokenize

end Machine
end Sys2Proof
end

