-- ==== Sys2Proof/Machine/Step.lean ====
section
/-! DEFINITION. One step of the machine, and the placing of an instruction where it is fetched next. -/

namespace Sys2Proof
namespace Machine

/-- One step. A build whose parameters break R71 or R303 has no meaning (I-ENV6, log entry 4). -/
def step (s : State) : Host.Outcome State Fault Refusal :=
  if s.cfg.ok then s.hostStep else .refused .badParameters

/-- `s` with the instruction of a table row's word placed where the next step reads it: a byte in the
RX channel, or a command word in a completed frame (log entry 20). -/
def State.withFetchWord (s : State) (nbits w : Nat) : State :=
  if nbits ≤ 8 then s.placeByte (BitVec.ofNat 8 w)
  else
    s.placeCommand (BitVec.ofNat 8 (w / 256)) (BitVec.ofNat 8 w)
      (match decodeTableWord nbits w with
       | some i => i.arity.least
       | none => 1)

end Machine
end Sys2Proof
end

