-- ==== Sys2Proof/Safety.lean ====
section
/-! DEFINITION. What holds between any two engine steps, and what counts as a safe stop. -/

namespace Sys2Proof
namespace Machine

/-- What holds between any two steps. The first group is R25 and the canonical form of the frame
buffer; the others bound the register files and indices (R8, R27, R28, R30), the batch (R102) and
what is true while a completed frame is processed (R105, R136, R137). -/
structure State.Inv (s : State) : Prop where
  /-- The frame buffer's list is canonical. -/
  memWf : Memory.wf s.fb
  /-- No byte is stored at or past `P_BUF_LEN` (R55). -/
  memBound : ∀ c ∈ s.fb, c.1 < s.cfg.bufLen
  /-- R25, first clause. -/
  idleEmpty : s.acc = false → s.len = 0
  /-- R25, second clause. -/
  liveStart : s.acc = true → 1 ≤ s.len ∧ s.len ≤ s.cfg.bufLen ∧ s.fbByte 0 = s.cfg.soc
  /-- R25, third clause. -/
  liveBody : s.acc = true → ∀ i, 1 ≤ i → i < s.len → s.cfg.isSentinel (s.fbByte i) = false
  /-- There are `P_MAX_TOKENS` token slots (R27). -/
  slotCount : s.slots.length = s.cfg.maxTokens
  /-- Token slots lie inside the frame buffer (R27). -/
  slotRange : ∀ x ∈ s.slots, x.ts ≤ s.cfg.bufLen ∧ x.te ≤ s.cfg.bufLen
  /-- `SCAN_END` lies inside the frame buffer (R28). -/
  scanRange : s.scanEnd ≤ s.cfg.bufLen
  /-- `TCNT` is at most `P_BUF_LEN − 1` (R8). -/
  countBound : s.tcnt ≤ s.cfg.bufLen - 1
  /-- `RB` has `P_RESP_LEN` bytes (R30). -/
  rbSize : s.rb.length = s.cfg.respLen
  /-- `RLEN` is at most `P_RESP_LEN` (R30). -/
  rlenBound : s.rlen ≤ s.cfg.respLen
  /-- The RX channel holds the bytes `RxAvail()` promised (R285). -/
  batch : s.left ≤ s.rx.length
  /-- A frame is processed only inside a cycle, with room for its terminator (R105). -/
  completing : s.phase ≠ .receive → s.busy = true ∧ s.acc = true ∧ s.len < s.cfg.bufLen
  /-- Only a valid frame is dispatched (R110, R136). -/
  dispatchedValid : s.phase = .dispatch → s.valid = true
  /-- Token 0 begins at index 1 (R131). -/
  dispatchedStart : s.phase = .dispatch → (s.slot 0).ts = 1
  /-- A dispatched frame has a token, and its tokens lie inside it (R133, R137). -/
  dispatchedTokens : s.phase = .dispatch → s.scanEnd ≤ s.len ∧ 1 ≤ s.tcnt ∧
    ∀ k, k < s.tcnt → k < s.cfg.maxTokens →
      1 ≤ (s.slot k).ts ∧ (s.slot k).ts ≤ (s.slot k).te ∧ (s.slot k).te ≤ s.scanEnd

/-- A stop the spec gives the machine: the collaborator hangs (R286), or the host or the collaborator
breaks a duty of its own (R282, D26, R286). -/
def Safe : Result → Prop
  | .next _ => True
  | .fault r => r = .collaboratorHangs
  | .refused r => r = .reentrantCycle ∨ r = .textHoldsSentinel ∨ r = .resetNotByReset

end Machine
end Sys2Proof
end

