-- ==== Sys2Proof/Certificates/Slice0/Obligations.lean ====
section
/-! DEFINITION. The statements for the provers, each from the rules its docstring names. -/

open Sys2Proof Sys2Proof.Machine

/-! ### The byte level -/

/-- R70: the classes are tested in the order RX.SOC, RX.EOC, RX.DATA, RX.IDLE and the first that
matches wins. -/
def Obligations.ByteClassFirstMatch : Prop :=
  ∀ (P : Params) (acc : Bool) (c : Byte),
    (c = P.soc → decodeByte P acc c = .rxSoc) ∧
    (c ≠ P.soc → c = P.eoc → acc = true → decodeByte P acc c = .rxEoc) ∧
    (c ≠ P.soc → c ≠ P.eoc → acc = true → decodeByte P acc c = .rxData c) ∧
    (c ≠ P.soc → acc = false → decodeByte P acc c = .rxIdle c)

/-- R104: a start byte starts or restarts a frame, in both assembly states and even with a full
buffer; every other register stays. -/
def Obligations.StartByteRestartsFrame : Prop :=
  ∀ s : State, s.cfg.ok = true →
    exec .rxSoc s = .next { s with fb := Memory.write s.fb 0 s.cfg.soc, len := 1, acc := true }

/-- R107: a data byte with room is stored at `LEN`, which grows by one; every other register stays. -/
def Obligations.DataByteAppends : Prop :=
  ∀ (s : State) (c : Byte), s.len < s.cfg.bufLen →
    exec (.rxData c) s = .next { s with fb := Memory.write s.fb s.len c, len := s.len + 1 }

/-- R106, R108: a data byte or an end byte with no room abandons the frame silently: the frame is
recorded as an overflow, nothing is sent, and every other register stays. The event is the spec's
decision D41 (log entry 18). -/
def Obligations.FullBufferAbandonsFrame : Prop :=
  ∀ (s : State) (c : Byte), s.cfg.bufLen ≤ s.len →
    let gone : State :=
      { s with acc := false, len := 0, events := s.events ++ [⟨.overflow, s.slice 0 s.len⟩] }
    exec (.rxData c) s = .next gone ∧ exec .rxEoc s = .next gone

/-- R109: a byte received while idle is discarded. -/
def Obligations.IdleByteIsDiscarded : Prop :=
  ∀ (s : State) (c : Byte), exec (.rxIdle c) s = .next s

/-- R55, R64: what the four byte classes leave alone. A start byte stores at address 0, a data byte
with room at address `LEN`, and each stores one byte; RX.EOC, RX.IDLE and a data byte without room
store nothing. The control registers, the payload, the input channels and the collaborator port stay. -/
def Obligations.ByteClassesFrame : Prop :=
  ∀ (s t : State) (i : Instr), Memory.wf s.fb → i.isCommand = false → exec i s = .next t →
    (t.cfg = s.cfg ∧ t.echo = s.echo ∧ t.busy = s.busy ∧ t.rb = s.rb ∧ t.rlen = s.rlen ∧
      t.pflag = s.pflag ∧ t.status = s.status ∧ t.left = s.left ∧ t.rx = s.rx ∧ t.ctl = s.ctl ∧
      t.answers = s.answers ∧ t.draws = s.draws ∧ t.host = s.host) ∧
    (i ≠ .rxEoc → t.tcnt = s.tcnt ∧ t.slots = s.slots ∧ t.scanEnd = s.scanEnd ∧ t.sum = s.sum ∧
      t.decl = s.decl ∧ t.starSeen = s.starSeen ∧ t.phase = s.phase ∧ t.tx = s.tx) ∧
    (i = .rxSoc → t.fbByte 0 = s.cfg.soc ∧ ∀ a, a ≠ 0 → t.fbByte a = s.fbByte a) ∧
    (∀ c, i = .rxData c → s.len < s.cfg.bufLen →
      t.fbByte s.len = c ∧ ∀ a, a ≠ s.len → t.fbByte a = s.fbByte a) ∧
    (∀ c, i = .rxData c → s.cfg.bufLen ≤ s.len → ∀ a, t.fbByte a = s.fbByte a) ∧
    (i = .rxEoc → ∀ a, t.fbByte a = s.fbByte a) ∧
    (∀ c, i = .rxIdle c → ∀ a, t.fbByte a = s.fbByte a)

/-- R105, R110: an end byte with room completes the frame; where the frame's sum equals its declared
checksum it is dispatched next. That the dispatch is a step of its own is the model's form (log
entry 8). -/
def Obligations.ValidFrameIsDispatched : Prop :=
  ∀ s : State, s.len < s.cfg.bufLen → s.tokenize.sum = s.tokenize.decl →
    exec .rxEoc s = .next { s.tokenize with phase := .dispatch }

/-- R110, R272: a frame whose sum differs from its declared checksum is reset and answered `NK `
with no payload; no transaction is issued and the frame buffer stays. The event is the spec's
decision D41 (log entry 18). -/
def Obligations.ChecksumFailureAnswersNK : Prop :=
  ∀ s : State, s.len < s.cfg.bufLen → s.tokenize.sum ≠ s.tokenize.decl →
    exec .rxEoc s = .next
      { s.tokenize with
        acc := false, len := 0
        tx := s.tx ++ [s.cfg.soc, 0x4E#8, 0x4B#8, 0x20#8, s.cfg.eoc]
        events := s.events ++ [⟨.checksum, s.slice 0 s.len⟩] }

/-! ### The engine's steps -/

/-- R6, R283, R285 (the host's list is the model's form, log entry 9): which acts of the host let the
engine take its next step, and that a delivered byte goes behind those pending. With the statements
below, a step runs the decoded instruction under each of them. -/
def Obligations.HostListMovesEngine : Prop :=
  ∀ s : State, s.cfg.ok = true →
    (s.host = [] → step s = s.engineStep) ∧
    (∀ rest, s.host = .run :: rest → step s = ({ s with host := rest } : State).engineStep) ∧
    (∀ rest, s.host = .await :: rest → s.busy = true → step s = s.engineStep) ∧
    (∀ rest, s.host = .await :: rest → s.busy = false → step s = .next { s with host := rest }) ∧
    (∀ c rest, s.host = .deliver c :: rest →
      step s = .next { s with host := rest, rx := s.rx ++ [c] })

/-- R102, R103: with no host action pending, a step inside a batch reads the oldest byte, mirrors it
first if `ECHO` is 1, and runs the instruction of its class. The form of the step (host list, PHASE,
LEFT) is the model's (log entries 8 and 9). -/
def Obligations.StepRunsReceivedByte : Prop :=
  ∀ (s : State) (n : Nat) (c : Byte) (rest : List Byte), s.cfg.ok = true → s.host = [] →
    s.busy = true → s.phase = .receive → s.left = n + 1 → s.rx = c :: rest →
    step s = exec (decodeByte s.cfg s.acc c)
      { s with left := n, rx := rest, tx := s.tx ++ (if s.echo then [c] else []) }

/-- R160, R161, R162, R165 (which bytes make the command word is the spec's decision D18): with no host
action pending, a step that dispatches a frame clears the payload and runs the command its command word
decodes to: the byte at index 1 as the category, and as the sub-letter the byte at index 2 where token 0
has two bytes, else `NUL`. The form of the step (host list, PHASE, LEFT) is the model's (log entries 8
and 9). -/
def Obligations.StepRunsCommand : Prop :=
  ∀ (s : State) (i : Instr), s.cfg.ok = true → s.host = [] → s.busy = true → s.phase = .dispatch →
    3 ≤ s.cfg.bufLen →
    let cat : Byte := if 1 < s.len then s.fbByte 1 else 0x00#8
    let sub : Byte := if (s.slot 0).ts + 2 ≤ (s.slot 0).te then s.fbByte 2 else 0x00#8
    decodeCommand s.cfg (cat ++ sub) = .instr i →
    step s = exec i { s with pflag := false, rlen := 0 }

/-- R163, R161 (D18, D19): a command word that no command has, formed as in `StepRunsCommand`, fails
with status 1, no transaction and no other effect. That PHASE then names the outcome class is the
model's form (log entry 8, D41). -/
def Obligations.UnrecognisedWordFails : Prop :=
  ∀ (s : State) (why : Reject), s.cfg.ok = true → s.host = [] → s.busy = true →
    s.phase = .dispatch → 3 ≤ s.cfg.bufLen →
    let cat : Byte := if 1 < s.len then s.fbByte 1 else 0x00#8
    let sub : Byte := if (s.slot 0).ts + 2 ≤ (s.slot 0).te then s.fbByte 2 else 0x00#8
    decodeCommand s.cfg (cat ++ sub) = .rejected why →
    step s = .next { s with pflag := false, rlen := 0, status := 1#8, phase := .respond .unknown }

/-- R250, R251, R252: the response frame: `OK ` exactly when the status is 0, the payload only then
and only if one is present; then the frame is reset. That the response is a step of its own and the
event are the model's form (log entries 8 and 18, D41). -/
def Obligations.ResponseFrameSent : Prop :=
  ∀ (s : State) (cls : FrameClass), s.cfg.ok = true → s.host = [] → s.busy = true →
    s.phase = .respond cls →
    step s = .next
      { s with
        tx := s.tx ++ (s.cfg.soc :: (if s.status = 0#8 then [0x4F#8, 0x4B#8, 0x20#8]
            else [0x4E#8, 0x4B#8, 0x20#8])
          ++ (if s.status = 0#8 ∧ s.pflag = true then s.rb.take s.rlen else []) ++ [s.cfg.eoc])
        events := s.events ++ [⟨cls, s.slice 0 s.len⟩]
        acc := false, len := 0, phase := .receive }

/-- R113: after the batch the engine clears `BUSY`. The form of the step (host list, PHASE, LEFT) is
the model's (log entries 8 and 9). -/
def Obligations.CycleEndsAfterBatch : Prop :=
  ∀ s : State, s.cfg.ok = true → s.host = [] → s.busy = true → s.phase = .receive → s.left = 0 →
    step s = .next { s with busy := false }

/-- R100, R102: a strobe with `notify_en = 0` sets `BUSY` and samples the count once. The channel
may report fewer bytes than it holds (R285; log entry 10 names `hidden`). The form of the step (host
list, PHASE, LEFT) is the model's (log entries 8 and 9). -/
def Obligations.CycleStartSamplesBatch : Prop :=
  ∀ (s : State) (hidden : Nat) (rest : List HostAction), s.cfg.ok = true → s.busy = false →
    s.host = .strobe false hidden :: rest →
    step s = .next
      { s with host := rest, busy := true, phase := .receive, left := s.rx.length - hidden }

/-- R101: a strobe with `notify_en = 1` queries the collaborator, and on a change sends `P_SOC "ST "
dec(st) P_EOC` before any byte is read. The form of the step (host list, PHASE, LEFT) is the model's
(log entries 8 and 9). -/
def Obligations.NotifierSendsStateChange : Prop :=
  ∀ (s : State) (hidden : Nat) (rest : List HostAction) (r : Reply), s.cfg.ok = true →
    s.busy = false → s.host = .strobe true hidden :: rest → s.answerTo .notifyQuery = .reply r →
    step s = .next
      { s.called .notifyQuery with
        host := rest, busy := true, phase := .receive, left := s.rx.length - hidden
        tx := s.tx ++ (if r.changed then
          s.cfg.soc :: [0x53#8, 0x54#8, 0x20#8] ++ dec r.st.toNat ++ [s.cfg.eoc] else []) }

/-- D31: a strobe while a cycle is in progress is refused (the spec's decision, R282). The host list
is the model's form (log entry 9). -/
def Obligations.ReentrantStrobeRefused : Prop :=
  ∀ (s : State) (notifyEn : Bool) (hidden : Nat) (rest : List HostAction), s.cfg.ok = true →
    s.busy = true → s.host = .strobe notifyEn hidden :: rest → step s = .refused .reentrantCycle

/-- R283, R300, R302 (the spec's decisions D32, D42): the system reset clears the registers with a
reset value, keeps what was sent and issued, and keeps or loses pending RX bytes. That the build's
parameters and the collaborator's answers stay is the model's choice (log entry 17). -/
def Obligations.SystemResetClearsRegisters : Prop :=
  ∀ (s : State) (lost : List Bool) (rest : List HostAction), s.cfg.ok = true →
    s.host = .reset lost :: rest →
    ∃ t, step s = .next t ∧ t.acc = false ∧ t.len = 0 ∧ t.echo = false ∧ t.busy = false ∧
      t.pflag = false ∧ t.rlen = 0 ∧ t.left = 0 ∧ t.cfg = s.cfg ∧ t.tx = s.tx ∧ t.ctl = s.ctl ∧
      t.answers = s.answers ∧ t.host = rest ∧ t.rx = keepPending lost s.rx ∧
      t.rx.Sublist s.rx ∧ t.events = s.events ++ [⟨.reset, s.slice 0 s.len⟩]

/-- R302 (the spec's decision D42; log entry 17 gives the form): a reset during the engine's next
step, or during the notifier step of a cycle's start, clears the registers that have a reset value and
leaves on the TX channel only the first `sent` of the bytes which that step writes. The transaction the
step issued stands. The events are log entry 24's and are not stated here. -/
def Obligations.ResetCutsTransmission : Prop :=
  ∀ (s u : State) (sent : Nat) (lost : List Bool) (rest : List HostAction) (w : List Byte),
    s.cfg.ok = true → u.tx = s.tx ++ w →
    (s.host = .resetDuring sent lost :: rest ∧ ({ s with host := rest } : State).engineStep = .next u ∨
      ∃ notifyEn, s.host = .strobeReset notifyEn sent lost :: rest ∧
        ({ s with host := rest } : State).startCycle notifyEn 0 = .next u) →
    ∃ t, step s = .next t ∧ t.tx = s.tx ++ w.take sent ∧ t.acc = false ∧ t.len = 0 ∧
      t.echo = false ∧ t.busy = false ∧ t.pflag = false ∧ t.rlen = 0 ∧ t.left = 0 ∧ t.cfg = u.cfg ∧
      t.ctl = u.ctl ∧ t.answers = u.answers ∧ t.host = u.host ∧ t.rx = keepPending lost u.rx ∧
      t.rx.Sublist u.rx

/-! ### The tokenizer and the parsers -/

/-- R133, R134, R135: the scan of a frame with a body stops at the first asterisk, the first `NUL`
(D16) or the frame's end, whichever is first; the declared checksum comes from the two bytes after
an asterisk, and is 0 where there is none. -/
def Obligations.ScanStopsAtTrailer : Prop :=
  ∀ s : State, 2 ≤ s.len →
    let t := s.tokenize
    2 ≤ t.scanEnd ∧ t.scanEnd ≤ s.len ∧
    (∀ j, 2 ≤ j → j < t.scanEnd → s.fbByte j ≠ nul ∧ s.fbByte j ≠ asterisk) ∧
    (t.scanEnd < s.len → s.fbByte t.scanEnd = nul ∨ s.fbByte t.scanEnd = asterisk) ∧
    (t.scanEnd < s.len → s.fbByte t.scanEnd = asterisk →
      t.starSeen = true ∧ t.decl = htou (s.byteAt (t.scanEnd + 1)) (s.byteAt (t.scanEnd + 2))) ∧
    (t.scanEnd = s.len ∨ s.fbByte t.scanEnd = nul → t.starSeen = false ∧ t.decl = 0#8)

/-- R143's closed form (derived there from R132 and R133): the sum is the start byte plus every byte
from index 1 up to the scan's end. -/
def Obligations.SumIsBodySum : Prop :=
  ∀ s : State, 2 ≤ s.len →
    s.tokenize.sum = (s.slice 1 s.tokenize.scanEnd).foldl (· + ·) s.cfg.soc

/-- R133, R138: the token count is one more than the number of spaces scanned, so it is at most
`LEN − 1`; `P_MAX_TOKENS` plays no part. -/
def Obligations.TokenCountCountsSpaces : Prop :=
  ∀ s : State, (2 ≤ s.len → s.tokenize.tcnt = 1 + (s.slice 2 s.tokenize.scanEnd).count sp) ∧
    1 ≤ s.tokenize.tcnt ∧ s.tokenize.tcnt ≤ max 1 (s.len - 1)

/-- R15, R133, R137, R138: the stored tokens (the first `TCNT` or `P_MAX_TOKENS`, whichever is fewer),
joined by spaces, are the frame from index 1 to the end of the last of them; that end is the scan's end
where every token is stored, and a space before it where more were counted than stored. No token holds a
space after its first index 1. -/
def Obligations.TokensSplitBody : Prop :=
  ∀ s : State, s.slots.length = s.cfg.maxTokens → 1 ≤ s.cfg.maxTokens → 2 ≤ s.len →
    let t := s.tokenize
    let stored := min t.tcnt s.cfg.maxTokens
    List.intercalate [sp] ((List.range stored).map t.arg) = s.slice 1 (t.slot (stored - 1)).te ∧
    (t.tcnt ≤ s.cfg.maxTokens → (t.slot (stored - 1)).te = t.scanEnd) ∧
    (s.cfg.maxTokens < t.tcnt →
      (t.slot (stored - 1)).te < t.scanEnd ∧ s.fbByte (t.slot (stored - 1)).te = sp) ∧
    ∀ k, k < stored → ∀ j, 2 ≤ j → (t.slot k).ts ≤ j → j < (t.slot k).te → s.fbByte j ≠ sp

/-- R142 (the spec's decision D17): a frame with an empty body is never valid. -/
def Obligations.EmptyBodyFails : Prop :=
  ∀ s : State, s.cfg.ok = true → s.len = 1 →
    s.tokenize.valid = false ∧ s.tokenize.tcnt = 1 ∧ s.tokenize.scanEnd = 1 ∧
    s.tokenize.sum = s.cfg.soc ∧ s.tokenize.decl = 0#8

/-- R135: where no asterisk is encountered (none stands in the frame past index 1 before the first
`NUL`, which ends the scan by the spec's decision D16), the declared checksum is 0 and `STARSEEN` is 0;
so the frame is valid exactly when its sum is 0 mod 256 (R136, the spec's decision D43). -/
def Obligations.MissingTrailerNeedsZeroSum : Prop :=
  ∀ s : State,
    (∀ j, 2 ≤ j → j < s.len → s.fbByte j = asterisk → ∃ k, 2 ≤ k ∧ k < j ∧ s.fbByte k = nul) →
    s.tokenize.decl = 0#8 ∧ s.tokenize.starSeen = false ∧
    (s.tokenize.valid = true ↔ s.tokenize.sum = 0#8)

/-- R144 (derived there): in a valid frame, changing one byte before the scan's end to another value
that is no asterisk and no `NUL` makes the frame invalid. (A changed byte that is a sentinel cannot
be stored at all, so the rule leaves it out; the statement holds for it too.) -/
def Obligations.SingleByteCorruptionDetected : Prop :=
  ∀ (s : State) (j : Nat) (v : Byte), Memory.wf s.fb → 2 ≤ s.len → s.tokenize.valid = true →
    1 ≤ j → j < s.tokenize.scanEnd → v ≠ s.fbByte j → v ≠ asterisk → v ≠ nul →
    ({ s with fb := Memory.write s.fb j v } : State).tokenize.valid = false

/-- R75, R79, R87, R105: every checksummed frame that fits is accepted, where its body is not empty,
holds no sentinel, and has no asterisk and no `NUL` after its first byte. From any state inside a
batch, idle or not, with echo on or off, whose next bytes are the frame of a body, the engine takes
one step a byte and then dispatches a valid frame whose scanned body is the one sent; nothing but
the echo is transmitted on the way. One step a byte and a dispatch after them is the model's form
(log entry 8). -/
def Obligations.ChecksummedFrameAccepted : Prop :=
  ∀ (s : State) (c : Byte) (body rest : List Byte) (n : Nat), s.cfg.ok = true → Memory.wf s.fb →
    s.host = [] → s.busy = true → s.phase = .receive →
    s.rx = frameOf s.cfg (c :: body) ++ rest → s.left = n + (frameOf s.cfg (c :: body)).length →
    (c :: body).length + 4 < s.cfg.bufLen →
    (∀ b ∈ c :: body, s.cfg.isSentinel b = false) → (∀ b ∈ body, b ≠ asterisk ∧ b ≠ nul) →
    ∃ t, Host.Core.run core (frameOf s.cfg (c :: body)).length s = .next t ∧
      t.phase = .dispatch ∧ t.valid = true ∧ t.slice 1 t.scanEnd = c :: body ∧ t.starSeen = true ∧
      t.rx = rest ∧ t.left = n ∧ t.ctl = s.ctl ∧
      t.tx = s.tx ++ (if s.echo then frameOf s.cfg (c :: body) else [])

/-- R140, R87, R53 (0 for every other byte is the spec's decision D15, the first digit high its D34): the
value of a hex digit for every byte, the value of two digits, and that a sender's two digits for a sum
are uppercase hex digits that read back as it. -/
def Obligations.ChecksumDigitsRoundTrip : Prop :=
  (∀ d : Nat, d < 10 → hv (BitVec.ofNat 8 (0x30 + d)) = BitVec.ofNat 8 d) ∧
  (∀ d : Nat, d < 6 → hv (BitVec.ofNat 8 (0x41 + d)) = BitVec.ofNat 8 (10 + d)) ∧
  (∀ c : Byte, (c < 0x30#8 ∨ 0x39#8 < c) → (c < 0x41#8 ∨ 0x46#8 < c) → hv c = 0#8) ∧
  (∀ a b : Byte, htou a b = BitVec.ofNat 8 (16 * (hv a).toNat + (hv b).toNat)) ∧
  ∀ v : Byte, ∃ a b, hex2 v = [a, b] ∧ htou a b = v ∧
    ∀ d ∈ [a, b], (0x30#8 ≤ d ∧ d ≤ 0x39#8) ∨ (0x41#8 ≤ d ∧ d ≤ 0x46#8)

/-- R254 (the form is the spec's decision D22), R139: the decimal text of a number is its digits, the
most significant first, with no leading zero, `"0"` for zero; its value is the number itself, and the
8-bit parse of it is the number mod 256. -/
def Obligations.DecimalTextRoundTrip : Prop :=
  ∀ n : Nat,
    (∀ c ∈ dec n, 0x30#8 ≤ c ∧ c ≤ 0x39#8) ∧
    (dec n).foldl (fun v c => 10 * v + (c.toNat - 0x30)) 0 = n ∧
    (n = 0 → dec n = [0x30#8]) ∧ (n ≠ 0 → ∃ c rest, dec n = c :: rest ∧ c ≠ 0x30#8) ∧
    dtou (dec n) = BitVec.ofNat 8 n

/-- R139 (a non-digit's value is the spec's decision D14): the decimal parse of a text, digit by
digit. -/
def Obligations.DecimalParseStep : Prop :=
  dtou [] = 0#8 ∧ ∀ (bs : List Byte) (c : Byte),
    dtou (bs ++ [c]) = BitVec.ofNat 8 (10 * (dtou bs).toNat + (c - 0x30#8).toNat)

/-! ### The commands -/

/-- R180, R181, R182: FE, FD, FS issue their one transaction and take its status as theirs. That
PHASE then names the outcome class is the model's form (log entry 8, D41). -/
def Obligations.FunctionCommandsComplete : Prop :=
  ∀ (s : State) (r : Reply), s.tcnt = 1 →
    let done := fun op : CtlOp => (Host.Outcome.next
      { s.called op with
        status := r.status
        phase := .respond (if r.status = 0#8 then .ok else .handlerFail) } : Result)
    (s.answerTo .enable = .reply r → exec .fe s = done .enable) ∧
    (s.answerTo .disable = .reply r → exec .fd s = done .disable) ∧
    (s.answerTo .sleep = .reply r → exec .fs s = done .sleep)

/-- R183 (both branches are the spec's decision D21): FR's transaction returns and FR takes its
status, or it resets the system and no TX byte is written. With no answer given one of the two happens,
which of them being free (log entry 12): a claim about FR must hold for both. That PHASE then names
the outcome class is the model's form (log entry 8, D41). -/
def Obligations.WatchdogResetHasTwoBranches : Prop :=
  ∀ s : State, s.tcnt = 1 →
    (∀ r, s.answerTo .reset = .reply r →
      exec .fr s = .next
        { s.called .reset with
          status := r.status
          phase := .respond (if r.status = 0#8 then .ok else .handlerFail) }) ∧
    (∀ lost, s.answerTo .reset = .resets lost →
      ∃ t, exec .fr s = .next t ∧ t.acc = false ∧ t.len = 0 ∧ t.echo = false ∧ t.busy = false ∧
        t.pflag = false ∧ t.rlen = 0 ∧ t.left = 0 ∧ t.tx = s.tx ∧ t.ctl = s.ctl ++ [.reset]) ∧
    (s.answers = [] → ∃ t, exec .fr s = .next t ∧ t.tx = s.tx ∧ t.ctl = s.ctl ++ [.reset] ∧
      ((∃ cls, t.phase = .respond cls ∧ t.busy = s.busy ∧ t.acc = s.acc ∧ t.len = s.len) ∨
        (t.busy = false ∧ t.acc = false ∧ t.len = 0)))

/-- R184: FB sends the decimal value of its argument, 8 bits, to the display. That PHASE then names
the outcome class is the model's form (log entry 8, D41). -/
def Obligations.BacklightSetsValue : Prop :=
  ∀ (s : State) (r : Reply), s.tcnt = 2 → s.slotInRange 1 = true →
    s.answerTo (.backlight (dtou (s.arg 1))) = .reply r →
    exec .fb s = .next
      { s.called (.backlight (dtou (s.arg 1))) with
        status := r.status
        phase := .respond (if r.status = 0#8 then .ok else .handlerFail) }

/-- R185: FP takes at least four tokens and prints the text from token 3 to the scan's end. That
PHASE then names the outcome class is the model's form (log entry 8, D41). -/
def Obligations.PrintSendsFreeText : Prop :=
  ∀ (s : State) (r : Reply), 4 ≤ s.tcnt →
    (s.slotInRange 1 = true ∧ s.slotInRange 2 = true ∧ s.slotInRange 3 = true) →
    s.scanEnd ≤ s.cfg.bufLen →
    let op : CtlOp :=
      .print (dtou (s.arg 1)) (dtou (s.arg 2)) (s.slice (s.slot 3).ts s.scanEnd)
    s.answerTo op = .reply r →
    exec .fp s = .next
      { s.called op with
        status := r.status
        phase := .respond (if r.status = 0#8 then .ok else .handlerFail) }

/-- R200 (any non-zero value turns echo on: the spec's decision D12): SE writes `ECHO`, succeeds,
and issues no transaction. That PHASE then names the outcome class is the model's form (log entry 8,
D41). -/
def Obligations.EchoSwitchWritesEcho : Prop :=
  ∀ s : State, s.tcnt = 2 → s.slotInRange 1 = true →
    exec .se s = .next
      { s with echo := decide (dtou (s.arg 1) ≠ 0#8), status := 0#8, phase := .respond .ok }

/-- R201: SC sends the decimal value of its argument as the capacity limit. That PHASE then names
the outcome class is the model's form (log entry 8, D41). -/
def Obligations.CapacityIsSet : Prop :=
  ∀ (s : State) (r : Reply), s.tcnt = 2 → s.slotInRange 1 = true →
    s.answerTo (.setCapacity (dtou (s.arg 1))) = .reply r →
    exec .sc s = .next
      { s.called (.setCapacity (dtou (s.arg 1))) with
        status := r.status
        phase := .respond (if r.status = 0#8 then .ok else .handlerFail) }

/-- R202, R203, R205, R206, R208 (non-zero is on: the spec's decision D12): SD, SG, SR, SS, SV each
send one bit. That PHASE then names the outcome class is the model's form (log entry 8, D41). -/
def Obligations.CheckSwitchesComplete : Prop :=
  ∀ (s : State) (r : Reply), s.tcnt = 2 → s.slotInRange 1 = true →
    let b := decide (dtou (s.arg 1) ≠ 0#8)
    let done := fun op : CtlOp => (Host.Outcome.next
      { s.called op with
        status := r.status
        phase := .respond (if r.status = 0#8 then .ok else .handlerFail) } : Result)
    (s.answerTo (.setDiodeChk b) = .reply r → exec .sd s = done (.setDiodeChk b)) ∧
    (s.answerTo (.setGndChk b) = .reply r → exec .sg s = done (.setGndChk b)) ∧
    (s.answerTo (.setRelayChk b) = .reply r → exec .sr s = done (.setRelayChk b)) ∧
    (s.answerTo (.setSelftest b) = .reply r → exec .ss s = done (.setSelftest b)) ∧
    (s.answerTo (.setVentReq b) = .reply r → exec .sv s = done (.setVentReq b))

/-- R204, R199 (the letters are the spec's decision D13): SL by the first byte of its argument, `NUL`
for an empty one; any letter but `'1'`, `'2'`, `'A'` fails with no transaction. That PHASE then names
the outcome class is the model's form (log entry 8, D41). -/
def Obligations.ServiceLevelSelects : Prop :=
  ∀ s : State, s.tcnt = 2 → s.slotInRange 1 = true →
    let done := fun (op : CtlOp) (r : Reply) => (Host.Outcome.next
      { s.called op with
        status := r.status
        phase := .respond (if r.status = 0#8 then .ok else .handlerFail) } : Result)
    (∀ r, (s.arg 1).headD 0x00#8 = 0x31#8 → s.answerTo (.setSvcLevel .level1) = .reply r →
      exec .sl s = done (.setSvcLevel .level1) r) ∧
    (∀ r, (s.arg 1).headD 0x00#8 = 0x32#8 → s.answerTo (.setSvcLevel .level2) = .reply r →
      exec .sl s = done (.setSvcLevel .level2) r) ∧
    (∀ r, (s.arg 1).headD 0x00#8 = 0x41#8 → s.answerTo .setAutoSvc = .reply r →
      exec .sl s = done .setAutoSvc r) ∧
    ((s.arg 1).headD 0x00#8 ≠ 0x31#8 → (s.arg 1).headD 0x00#8 ≠ 0x32#8 →
      (s.arg 1).headD 0x00#8 ≠ 0x41#8 →
      exec .sl s = .next { s with status := 1#8, phase := .respond .arg })

/-- R207 (the test on the parsed values and the argument order are the spec's decision D37): ST
disables the timer when all four values are 0, else sets it. That PHASE then names the outcome class
is the model's form (log entry 8, D41). -/
def Obligations.TimerScheduleOrDisable : Prop :=
  ∀ (s : State) (r : Reply), s.tcnt = 5 → (∀ j < 4, s.slotInRange (j + 1) = true) →
    let a := dtou (s.arg 1)
    let b := dtou (s.arg 2)
    let c := dtou (s.arg 3)
    let d := dtou (s.arg 4)
    let op : CtlOp :=
      if a = 0#8 ∧ b = 0#8 ∧ c = 0#8 ∧ d = 0#8 then .timerDisable else .timerSet a b c d
    s.answerTo op = .reply r →
    exec .st s = .next
      { s.called op with
        status := r.status
        phase := .respond (if r.status = 0#8 then .ok else .handlerFail) }

/-- R209 (no century offset: the spec's decision D39): S1 sends its six decimal values in token
order. That PHASE then names the outcome class is the model's form (log entry 8, D41). -/
def Obligations.ClockIsSet : Prop :=
  ∀ (s : State) (r : Reply), s.tcnt = 7 → (∀ j < 6, s.slotInRange (j + 1) = true) →
    let op : CtlOp :=
      .setTime (dtou (s.arg 1)) (dtou (s.arg 2)) (dtou (s.arg 3)) (dtou (s.arg 4))
        (dtou (s.arg 5)) (dtou (s.arg 6))
    s.answerTo op = .reply r →
    exec .s1 s = .next
      { s.called op with
        status := r.status
        phase := .respond (if r.status = 0#8 then .ok else .handlerFail) }

/-- R230 to R234, R255, R256 (the payload formats and the truncation are the spec's decisions D6, D22 to
D25): a query whose transaction returns status 0 sets its payload, cut to `P_RESP_LEN` bytes. That
PHASE then names the outcome class is the model's form (log entry 8, D41). -/
def Obligations.QueriesAnswerPayload : Prop :=
  ∀ (s : State) (r : Reply), s.tcnt = 1 → r.status = 0#8 →
    let digit : Nat → Byte := fun n => BitVec.ofNat 8 (if n < 10 then 0x30 + n else 0x61 + (n - 10))
    let f := r.flags.toNat
    let hex := [digit (f / 4096), digit (f / 256 % 16), digit (f / 16 % 16), digit (f % 16)]
    let done := fun (op : CtlOp) (p : List Byte) => (Host.Outcome.next
      { s.called op with
        status := 0#8, pflag := true, rlen := min p.length s.cfg.respLen
        rb := p.take s.cfg.respLen ++ s.rb.drop (min p.length s.cfg.respLen)
        phase := .respond .ok } : Result)
    (s.answerTo .getCapRange = .reply r →
      exec .gc s = done .getCapRange (dec r.lo.toNat ++ [0x20#8] ++ dec r.hi.toNat)) ∧
    (s.answerTo .getSettings = .reply r →
      exec .gs s = done .getSettings (dec r.cap.toNat ++ [0x20#8] ++ hex)) ∧
    (s.answerTo .getState = .reply r →
      exec .ge s =
        done .getState (dec r.st.toNat ++ [0x20#8] ++ dec (r.el % 2 ^ s.cfg.elapsedW))) ∧
    (s.answerTo .getTime = .reply r → exec .gt s = done .getTime r.text) ∧
    (s.answerTo .getVersion = .reply r →
      exec .gv s = done .getVersion (r.text ++ [0x20#8] ++ s.cfg.versionSuffix))

/-- R169: a query whose transaction returns a non-zero status writes no payload. That PHASE then
names the outcome class is the model's form (log entry 8, D41). -/
def Obligations.FailedQueriesSendNothing : Prop :=
  ∀ (s : State) (r : Reply), s.tcnt = 1 → r.status ≠ 0#8 →
    let done := fun op : CtlOp => (Host.Outcome.next
      { s.called op with status := r.status, phase := .respond .handlerFail } : Result)
    (s.answerTo .getCapRange = .reply r → exec .gc s = done .getCapRange) ∧
    (s.answerTo .getSettings = .reply r → exec .gs s = done .getSettings) ∧
    (s.answerTo .getState = .reply r → exec .ge s = done .getState) ∧
    (s.answerTo .getTime = .reply r → exec .gt s = done .getTime) ∧
    (s.answerTo .getVersion = .reply r → exec .gv s = done .getVersion)

/-- R164, R85 (the arities the source omits are the spec's decision D11): the arity is checked
before every handler; on a mismatch the status is 1 and nothing else happens. That PHASE then names
the outcome class is the model's form (log entry 8, D41). -/
def Obligations.ArityMismatchFails : Prop :=
  ∀ (i : Instr) (s : State),
    (i ∈ [Instr.fe, .fd, .fs, .fr, .gc, .gs, .ge, .gt, .gv] ∧ s.tcnt ≠ 1 ∨
      i ∈ [Instr.fb, .se, .sc, .sd, .sg, .sl, .sr, .ss, .sv] ∧ s.tcnt ≠ 2 ∨
      i = .fp ∧ s.tcnt < 4 ∨ i = .st ∧ s.tcnt ≠ 5 ∨ i = .s1 ∧ s.tcnt ≠ 7) →
    exec i s = .next { s with status := 1#8, phase := .respond .arity }

/-- R286, R13 (the port's form is the spec's decision D20): where a transaction never returns, the engine
is stuck: each command that issues one, on the operands on which it does, and the notifier's query at a
strobe. That the stop is a fault is the model's form (log entry 14). -/
def Obligations.HangingTransactionStopsEngine : Prop :=
  ∀ (s : State) (rest : List Answer), s.answers = .never :: rest →
    (s.tcnt = 1 → ∀ i ∈ [Instr.fe, .fd, .fs, .fr, .gc, .gs, .ge, .gt, .gv],
      exec i s = .fault .collaboratorHangs) ∧
    (s.tcnt = 2 → s.slotInRange 1 = true → ∀ i ∈ [Instr.fb, .sc, .sd, .sg, .sr, .ss, .sv],
      exec i s = .fault .collaboratorHangs) ∧
    (s.tcnt = 2 → s.slotInRange 1 = true → (s.arg 1).headD 0x00#8 ∈ [0x31#8, 0x32#8, 0x41#8] →
      exec .sl s = .fault .collaboratorHangs) ∧
    (4 ≤ s.tcnt → (∀ j < 3, s.slotInRange (j + 1) = true) → s.scanEnd ≤ s.cfg.bufLen →
      exec .fp s = .fault .collaboratorHangs) ∧
    (s.tcnt = 5 → (∀ j < 4, s.slotInRange (j + 1) = true) →
      exec .st s = .fault .collaboratorHangs) ∧
    (s.tcnt = 7 → (∀ j < 6, s.slotInRange (j + 1) = true) →
      exec .s1 s = .fault .collaboratorHangs) ∧
    (∀ hidden acts, s.cfg.ok = true → s.busy = false → s.host = .strobe true hidden :: acts →
      step s = .fault .collaboratorHangs)

/-- R286 (the spec's decisions D20, D26; log entries 12 and 16 give the form): every transaction goes
on record with its arguments and takes the collaborator's next answer; results are unconstrained but for
texts that must hold no sentinel; only `C_RESET` may reset. Where no answer is given the result is free,
its text keeps that limit, and `C_RESET` may return or reset (R183, D21). -/
def Obligations.CollaboratorAnswersAreUsed : Prop :=
  ∀ (s : State) (op : CtlOp),
    (∃ n, s.called op =
      { s with ctl := s.ctl ++ [op], answers := s.answers.tail, draws := n }) ∧
    (s.answers = [] →
      (∃ r, s.answerTo op = .reply r ∧ s.cfg.holdsSentinel r.text = false) ∨
        op = .reset ∧ ∃ lost, s.answerTo op = .resets lost) ∧
    (∀ r rest, s.answers = .returned r :: rest →
      op.returnsText = false ∨ s.cfg.holdsSentinel r.text = false → s.answerTo op = .reply r) ∧
    (∀ rest, s.answers = .never :: rest → s.answerTo op = .hangs) ∧
    (∀ lost rest, s.answers = .resets lost :: rest →
      (op = .reset → s.answerTo op = .resets lost) ∧
      (op ≠ .reset → s.answerTo op = .broken .resetNotByReset))

/-- D26, I-ENV2 (log entry 15): GT and GV refuse a text with a sentinel byte that comes with
status 0. -/
def Obligations.SentinelTextIsRefused : Prop :=
  ∀ (s : State) (r : Reply) (rest : List Answer), s.tcnt = 1 → s.answers = .returned r :: rest →
    r.status = 0#8 → s.cfg.holdsSentinel r.text = true →
    exec .gt s = .refused .textHoldsSentinel ∧ exec .gv s = .refused .textHoldsSentinel

/-! ### The whole machine -/

/-- R168, R35, R36: what every command leaves alone, unless FR's transaction resets the system. It
stores no byte of the frame buffer, sends nothing, and writes the token slots, the assembly state and
the channels never; `ECHO` only by SE; the payload only by a query. -/
def Obligations.CommandsFrame : Prop :=
  ∀ (i : Instr) (s t : State), i.isCommand = true → exec i s = .next t →
    (i = .fr → ∀ lost, s.answerTo .reset ≠ .resets lost) →
    (t.cfg = s.cfg ∧ t.acc = s.acc ∧ t.len = s.len ∧ t.busy = s.busy ∧ t.tcnt = s.tcnt ∧
      t.slots = s.slots ∧ t.scanEnd = s.scanEnd ∧ t.sum = s.sum ∧ t.decl = s.decl ∧
      t.starSeen = s.starSeen ∧ t.left = s.left ∧ t.rx = s.rx ∧ t.tx = s.tx ∧ t.host = s.host ∧
      t.events = s.events) ∧
    (∀ a, t.fbByte a = s.fbByte a) ∧
    (i ≠ .se → t.echo = s.echo) ∧
    (i ∉ [Instr.gc, .ge, .gs, .gt, .gv] → t.rb = s.rb ∧ t.rlen = s.rlen ∧ t.pflag = s.pflag) ∧
    (i = .se → t.ctl = s.ctl ∧ t.answers = s.answers ∧ t.draws = s.draws)

/-- R60, R113, R165: no step issues more than one collaborator transaction, and none is withdrawn. -/
def Obligations.AtMostOneTransactionPerStep : Prop :=
  ∀ s t : State, step s = .next t → t.ctl = s.ctl ∨ ∃ op, t.ctl = s.ctl ++ [op]

/-- R169, R252: from a cleared payload, a command leaves one present only if it is a query and its
status is 0. -/
def Obligations.PayloadOnlyFromQueries : Prop :=
  ∀ (i : Instr) (s t : State), i.isCommand = true → s.pflag = false → exec i s = .next t →
    t.pflag = true → i ∈ [Instr.gc, .ge, .gs, .gt, .gv] ∧ t.status = 0#8

/-- R24, R35, R300: only a dispatched SE or a system reset changes `ECHO`, and a reset clears it.
The event history is the spec's decision D41 (log entry 18); that the RESET event comes last in a step a
reset cuts is the model's choice (log entry 24). -/
def Obligations.EchoChangesOnlyBySwitchOrReset : Prop :=
  ∀ s t : State, step s = .next t → t.echo ≠ s.echo →
    (s.busy = true ∧ s.phase = .dispatch ∧ decodeCommand s.cfg s.cw = .instr .se) ∨
    (t.echo = false ∧ ∃ bs, t.events.getLast? = some ⟨.reset, bs⟩)

/-- R56, R59: bytes written to the TX channel are never withdrawn or reordered. -/
def Obligations.TransmissionNeverWithdrawn : Prop :=
  ∀ s t : State, step s = .next t → ∃ w, t.tx = s.tx ++ w

/-- R34: the build's parameters are constants. -/
def Obligations.ParametersNeverChange : Prop :=
  ∀ s t : State, step s = .next t → t.cfg = s.cfg

/-- R110, R168: a dispatched frame's next step is its response, with nothing sent before it, unless
the system was reset. That completion takes several steps is the model's form (log entry 8). -/
def Obligations.DispatchLeadsToResponse : Prop :=
  ∀ s t : State, s.host = [] → s.busy = true → s.phase = .dispatch → step s = .next t →
    t.tx = s.tx ∧
    ((∃ cls, t.phase = .respond cls ∧ t.busy = true ∧ t.acc = s.acc ∧ t.len = s.len) ∨
      (t.busy = false ∧ t.acc = false ∧ t.ctl = s.ctl ++ [.reset]))

/-- R25 and the bounds of R8, R27, R28, R30, R105, R136: the invariant of Sys2Proof/Safety.lean is kept
by every step. -/
def Obligations.InvariantKeptByEveryStep : Prop :=
  ∀ s t : State, s.Inv → step s = .next t → t.Inv

/-- R300: the reset state meets the invariant. Its values for the registers the spec leaves
unspecified are the model's choice (log entry 5). -/
def Obligations.ResetMeetsInvariant : Prop :=
  State.reset.Inv ∧ ∀ P : Params, (State.resetOf P).Inv

/-- R13, R270: in a well-formed build, from every state that meets the invariant, a step answers a next
state or one of the stops the spec gives: no index leaves the frame buffer, no promised byte is
missing. -/
def Obligations.InvariantStatesStopSafely : Prop :=
  ∀ s : State, s.cfg.ok = true → s.Inv → Safe (step s)

/-- R38: stale frame-buffer bytes influence no result. Two states that meet the invariant and differ
only in frame-buffer bytes at or past `LEN` stop alike, or go on to states that differ only so. -/
def Obligations.StaleBytesNeverMatter : Prop :=
  ∀ (s : State) (m : List Host.Cell), s.Inv → Memory.wf m →
    (∀ i, i < s.len → Memory.read m i = s.fbByte i) →
    (∀ r, step s = .fault r → step { s with fb := m } = .fault r) ∧
    (∀ r, step s = .refused r → step { s with fb := m } = .refused r) ∧
    (∀ t, step s = .next t → ∃ n, step { s with fb := m } = .next { t with fb := n } ∧
      ∀ i, i < t.len → Memory.read n i = t.fbByte i)

/-! ### Encoding -/

/-- R70, R74, R82: decoding the bytes that select an instruction gives it back, for every well-formed
instruction of every well-formed build. -/
def Obligations.DecodeOfEncode : Prop :=
  ∀ (P : Params) (acc : Bool) (i : Instr), P.ok = true → i.wellFormed P acc = true →
    decode P acc (encode P i) = .instr i

/-- R70, R83, R84: only the listed encodings decode, so no two instructions share one, and what decodes
is well formed. -/
def Obligations.DecodeOnlyEncodings : Prop :=
  ∀ (P : Params) (acc : Bool) (bs : List Byte) (i : Instr), decode P acc bs = .instr i →
    encode P i = bs ∧ i.wellFormed P acc = true

/-- R82, R70: six words of the opcode table, read from their numbers in the default build (log entry 2).
That 0x0D reads as RX.EOC is the model's choice to read a byte while a frame is collected, `ACC = 1` (log
entry 20); R70 makes it RX.IDLE where `ACC` is 0. -/
def Obligations.TableWordsDecode : Prop :=
  decodeTableWord 16 0x4645 = some .fe ∧ decodeTableWord 16 0x5331 = some .s1 ∧
  decodeTableWord 16 0x4756 = some .gv ∧ decodeTableWord 16 0x465A = none ∧
  decodeTableWord 8 0x24 = some .rxSoc ∧ decodeTableWord 8 0x0D = some .rxEoc
end

