-- ==== Sys2Proof/Laws/Memory.lean ====
section
/-! SUPPORT. The laws of the frame buffer's sparse list: reads after writes, and the canonical form. -/

namespace Sys2Proof
namespace Machine

/-- An address that no cell lists reads as `NUL`. -/
theorem Memory.read_of_forall_ne (m : List Host.Cell) (a : Nat) (h : ∀ c ∈ m, c.1 ≠ a) :
    Memory.read m a = nul := by
  induction m with
  | nil => rfl
  | cons c m ih =>
    simp only [Memory.read, if_neg (h c List.mem_cons_self)]
    exact ih fun d hd => h d (List.mem_cons_of_mem _ hd)

/-- A read after a write to the same address gives the value written. -/
theorem Memory.read_write_same (m : List Host.Cell) (h : Memory.wf m) (a : Nat) (v : Byte) :
    Memory.read (Memory.write m a v) a = v := by
  induction m with
  | nil => by_cases hv : v = nul <;> simp [Memory.write, Memory.read, hv]
  | cons c m ih =>
    have hp := List.pairwise_cons.mp h.1
    have hm : Memory.wf m := ⟨hp.2, fun d hd => h.2 d (List.mem_cons_of_mem _ hd)⟩
    have hout : a ≤ c.1 → Memory.read m a = nul := fun hle =>
      Memory.read_of_forall_ne m a fun d hd => by have := hp.1 d hd; omega
    unfold Memory.write
    split_ifs with hlt hv heq hv
    · rw [hv, Memory.read, if_neg (by omega), hout hlt.le]
    · simp [Memory.read]
    · rw [hv, hout heq.le]
    · simp [Memory.read]
    · rw [Memory.read, if_neg (fun e => heq e.symm), ih hm]

/-- A write leaves every other address alone. -/
theorem Memory.read_write_other (m : List Host.Cell) (a b : Nat) (v : Byte) (hab : b ≠ a) :
    Memory.read (Memory.write m a v) b = Memory.read m b := by
  induction m with
  | nil => by_cases hv : v = nul <;> simp [Memory.write, Memory.read, hv, hab.symm]
  | cons c m ih =>
    unfold Memory.write
    split_ifs with hlt hv heq hv
    · rfl
    · simp [Memory.read, hab.symm]
    · simp [Memory.read, ← heq, hab.symm]
    · simp [Memory.read, ← heq, hab.symm]
    · simp [Memory.read, ih]

/-- A cell of a written memory is the written one or one there before. -/
theorem Memory.mem_write (m : List Host.Cell) (a : Nat) (v : Byte) (c : Host.Cell)
    (hc : c ∈ Memory.write m a v) : (c = (a, v) ∧ v ≠ nul) ∨ c ∈ m := by
  induction m with
  | nil =>
    by_cases hv : v = nul
    · simp [Memory.write, hv] at hc
    · simp [Memory.write, hv] at hc; exact .inl ⟨hc, hv⟩
  | cons d m ih =>
    unfold Memory.write at hc
    split_ifs at hc with hlt hv heq hv
    · exact .inr hc
    · rcases List.mem_cons.mp hc with rfl | hc
      · exact .inl ⟨rfl, hv⟩
      · exact .inr hc
    · exact .inr (List.mem_cons_of_mem _ hc)
    · rcases List.mem_cons.mp hc with rfl | hc
      · exact .inl ⟨rfl, hv⟩
      · exact .inr (List.mem_cons_of_mem _ hc)
    · rcases List.mem_cons.mp hc with rfl | hc
      · exact .inr List.mem_cons_self
      · exact (ih hc).imp_right (List.mem_cons_of_mem _)

/-- A write keeps the canonical form. -/
theorem Memory.wf_write (m : List Host.Cell) (h : Memory.wf m) (a : Nat) (v : Byte) :
    Memory.wf (Memory.write m a v) := by
  refine ⟨?_, fun c hc => ?_⟩
  · induction m with
    | nil => by_cases hv : v = nul <;> simp [Memory.write, hv]
    | cons d m ih =>
      have hp := List.pairwise_cons.mp h.1
      have hm : Memory.wf m := ⟨hp.2, fun e he => h.2 e (List.mem_cons_of_mem _ he)⟩
      unfold Memory.write
      split_ifs with hlt hv heq hv
      · exact h.1
      · refine List.pairwise_cons.mpr ⟨fun e he => ?_, h.1⟩
        rcases List.mem_cons.mp he with rfl | he
        · exact hlt
        · exact hlt.trans (hp.1 e he)
      · exact hp.2
      · exact List.pairwise_cons.mpr ⟨fun e he => by have := hp.1 e he; simp only; omega, hp.2⟩
      · refine List.pairwise_cons.mpr ⟨fun e he => ?_, ih hm⟩
        rcases Memory.mem_write m a v e he with ⟨rfl, _⟩ | he
        · simp only; omega
        · exact hp.1 e he
  · rcases Memory.mem_write m a v c hc with ⟨rfl, hv⟩ | hc
    · exact hv
    · exact h.2 c hc

/-- The empty memory is canonical. -/
theorem Memory.wf_nil : Memory.wf [] := ⟨List.Pairwise.nil, fun _ h => absurd h List.not_mem_nil⟩

/-- The frame buffer of every reset state is canonical. -/
theorem State.resetOf_memWf (P : Params) : Memory.wf (State.resetOf P).fb := Memory.wf_nil

/-- A sparse list built by writes is canonical. -/
theorem Memory.wf_foldl_write (cells : List (Byte × Nat)) (m : List Host.Cell) (h : Memory.wf m) :
    Memory.wf (cells.foldl (fun m c => Memory.write m c.2 c.1) m) := by
  induction cells generalizing m with
  | nil => exact h
  | cons c cells ih => exact ih _ (Memory.wf_write m h c.2 c.1)

/-- Canonical memories that read alike are the same list. -/
theorem Memory.ext (m n : List Host.Cell) (hm : Memory.wf m) (hn : Memory.wf n)
    (h : ∀ a, Memory.read m a = Memory.read n a) : m = n := by
  induction m generalizing n with
  | nil =>
    cases n with
    | nil => rfl
    | cons d n =>
      have := h d.1
      simp only [Memory.read, if_true] at this
      exact absurd this.symm (hn.2 d List.mem_cons_self)
  | cons c m ih =>
    have hpm := List.pairwise_cons.mp hm.1
    cases n with
    | nil =>
      have := h c.1
      simp only [Memory.read, if_true] at this
      exact absurd this (hm.2 c List.mem_cons_self)
    | cons d n =>
      have hpn := List.pairwise_cons.mp hn.1
      have below : ∀ (l : List Host.Cell) (e : Host.Cell) (a : Nat),
          (∀ x ∈ l, e.1 < x.1) → a < e.1 → Memory.read (e :: l) a = nul := fun l e a hl ha =>
        Memory.read_of_forall_ne _ a fun x hx => by
          rcases List.mem_cons.mp hx with rfl | hx
          · omega
          · have := hl x hx; omega
      have hcd : c.1 = d.1 := by
        rcases Nat.lt_trichotomy c.1 d.1 with hlt | heq | hgt
        · have := h c.1
          rw [below n d c.1 hpn.1 hlt] at this
          simp only [Memory.read, if_true] at this
          exact absurd this (hm.2 c List.mem_cons_self)
        · exact heq
        · have := h d.1
          rw [below m c d.1 hpm.1 hgt] at this
          simp only [Memory.read, if_true] at this
          exact absurd this.symm (hn.2 d List.mem_cons_self)
      have hval : c.2 = d.2 := by
        have := h c.1
        simpa only [Memory.read, if_true, if_pos hcd.symm] using this
      have htl : m = n := by
        refine ih n ⟨hpm.2, fun e he => hm.2 e (List.mem_cons_of_mem _ he)⟩
          ⟨hpn.2, fun e he => hn.2 e (List.mem_cons_of_mem _ he)⟩ fun a => ?_
        by_cases ha : c.1 = a
        · rw [Memory.read_of_forall_ne m a fun x hx => by have := hpm.1 x hx; omega,
            Memory.read_of_forall_ne n a fun x hx => by have := hpn.1 x hx; omega]
        · have := h a
          simpa only [Memory.read, if_neg ha, if_neg (hcd ▸ ha)] using this
      rw [htl, Prod.ext hcd hval]

end Machine
end Sys2Proof
end

