-- ==== Sys2Proof/Laws/State.lean ====
section
/-! SUPPORT. One lemma per field and update: what each named update of State leaves in each register. -/

namespace Sys2Proof
namespace Machine

/-! `State.record` -/

@[simp] theorem State.record_cfg (s : State) (cls : FrameClass) :
    (s.record cls).cfg = s.cfg := rfl
@[simp] theorem State.record_acc (s : State) (cls : FrameClass) :
    (s.record cls).acc = s.acc := rfl
@[simp] theorem State.record_len (s : State) (cls : FrameClass) :
    (s.record cls).len = s.len := rfl
@[simp] theorem State.record_fb (s : State) (cls : FrameClass) :
    (s.record cls).fb = s.fb := rfl
@[simp] theorem State.record_echo (s : State) (cls : FrameClass) :
    (s.record cls).echo = s.echo := rfl
@[simp] theorem State.record_busy (s : State) (cls : FrameClass) :
    (s.record cls).busy = s.busy := rfl
@[simp] theorem State.record_tcnt (s : State) (cls : FrameClass) :
    (s.record cls).tcnt = s.tcnt := rfl
@[simp] theorem State.record_slots (s : State) (cls : FrameClass) :
    (s.record cls).slots = s.slots := rfl
@[simp] theorem State.record_scanEnd (s : State) (cls : FrameClass) :
    (s.record cls).scanEnd = s.scanEnd := rfl
@[simp] theorem State.record_sum (s : State) (cls : FrameClass) :
    (s.record cls).sum = s.sum := rfl
@[simp] theorem State.record_decl (s : State) (cls : FrameClass) :
    (s.record cls).decl = s.decl := rfl
@[simp] theorem State.record_starSeen (s : State) (cls : FrameClass) :
    (s.record cls).starSeen = s.starSeen := rfl
@[simp] theorem State.record_rb (s : State) (cls : FrameClass) :
    (s.record cls).rb = s.rb := rfl
@[simp] theorem State.record_rlen (s : State) (cls : FrameClass) :
    (s.record cls).rlen = s.rlen := rfl
@[simp] theorem State.record_pflag (s : State) (cls : FrameClass) :
    (s.record cls).pflag = s.pflag := rfl
@[simp] theorem State.record_status (s : State) (cls : FrameClass) :
    (s.record cls).status = s.status := rfl
@[simp] theorem State.record_phase (s : State) (cls : FrameClass) :
    (s.record cls).phase = s.phase := rfl
@[simp] theorem State.record_left (s : State) (cls : FrameClass) :
    (s.record cls).left = s.left := rfl
@[simp] theorem State.record_rx (s : State) (cls : FrameClass) :
    (s.record cls).rx = s.rx := rfl
@[simp] theorem State.record_tx (s : State) (cls : FrameClass) :
    (s.record cls).tx = s.tx := rfl
@[simp] theorem State.record_ctl (s : State) (cls : FrameClass) :
    (s.record cls).ctl = s.ctl := rfl
@[simp] theorem State.record_answers (s : State) (cls : FrameClass) :
    (s.record cls).answers = s.answers := rfl
@[simp] theorem State.record_draws (s : State) (cls : FrameClass) :
    (s.record cls).draws = s.draws := rfl
@[simp] theorem State.record_host (s : State) (cls : FrameClass) :
    (s.record cls).host = s.host := rfl
@[simp] theorem State.record_events (s : State) (cls : FrameClass) :
    (s.record cls).events = s.events ++ [⟨cls, s.liveBytes⟩] := rfl

/-! `State.frameReset` -/

@[simp] theorem State.frameReset_cfg (s : State) :
    (s.frameReset).cfg = s.cfg := rfl
@[simp] theorem State.frameReset_acc (s : State) :
    (s.frameReset).acc = false := rfl
@[simp] theorem State.frameReset_len (s : State) :
    (s.frameReset).len = 0 := rfl
@[simp] theorem State.frameReset_fb (s : State) :
    (s.frameReset).fb = s.fb := rfl
@[simp] theorem State.frameReset_echo (s : State) :
    (s.frameReset).echo = s.echo := rfl
@[simp] theorem State.frameReset_busy (s : State) :
    (s.frameReset).busy = s.busy := rfl
@[simp] theorem State.frameReset_tcnt (s : State) :
    (s.frameReset).tcnt = s.tcnt := rfl
@[simp] theorem State.frameReset_slots (s : State) :
    (s.frameReset).slots = s.slots := rfl
@[simp] theorem State.frameReset_scanEnd (s : State) :
    (s.frameReset).scanEnd = s.scanEnd := rfl
@[simp] theorem State.frameReset_sum (s : State) :
    (s.frameReset).sum = s.sum := rfl
@[simp] theorem State.frameReset_decl (s : State) :
    (s.frameReset).decl = s.decl := rfl
@[simp] theorem State.frameReset_starSeen (s : State) :
    (s.frameReset).starSeen = s.starSeen := rfl
@[simp] theorem State.frameReset_rb (s : State) :
    (s.frameReset).rb = s.rb := rfl
@[simp] theorem State.frameReset_rlen (s : State) :
    (s.frameReset).rlen = s.rlen := rfl
@[simp] theorem State.frameReset_pflag (s : State) :
    (s.frameReset).pflag = s.pflag := rfl
@[simp] theorem State.frameReset_status (s : State) :
    (s.frameReset).status = s.status := rfl
@[simp] theorem State.frameReset_phase (s : State) :
    (s.frameReset).phase = s.phase := rfl
@[simp] theorem State.frameReset_left (s : State) :
    (s.frameReset).left = s.left := rfl
@[simp] theorem State.frameReset_rx (s : State) :
    (s.frameReset).rx = s.rx := rfl
@[simp] theorem State.frameReset_tx (s : State) :
    (s.frameReset).tx = s.tx := rfl
@[simp] theorem State.frameReset_ctl (s : State) :
    (s.frameReset).ctl = s.ctl := rfl
@[simp] theorem State.frameReset_answers (s : State) :
    (s.frameReset).answers = s.answers := rfl
@[simp] theorem State.frameReset_draws (s : State) :
    (s.frameReset).draws = s.draws := rfl
@[simp] theorem State.frameReset_host (s : State) :
    (s.frameReset).host = s.host := rfl
@[simp] theorem State.frameReset_events (s : State) :
    (s.frameReset).events = s.events := rfl

/-! `State.abandon` -/

@[simp] theorem State.abandon_cfg (s : State) (cls : FrameClass) :
    (s.abandon cls).cfg = s.cfg := rfl
@[simp] theorem State.abandon_acc (s : State) (cls : FrameClass) :
    (s.abandon cls).acc = false := rfl
@[simp] theorem State.abandon_len (s : State) (cls : FrameClass) :
    (s.abandon cls).len = 0 := rfl
@[simp] theorem State.abandon_fb (s : State) (cls : FrameClass) :
    (s.abandon cls).fb = s.fb := rfl
@[simp] theorem State.abandon_echo (s : State) (cls : FrameClass) :
    (s.abandon cls).echo = s.echo := rfl
@[simp] theorem State.abandon_busy (s : State) (cls : FrameClass) :
    (s.abandon cls).busy = s.busy := rfl
@[simp] theorem State.abandon_tcnt (s : State) (cls : FrameClass) :
    (s.abandon cls).tcnt = s.tcnt := rfl
@[simp] theorem State.abandon_slots (s : State) (cls : FrameClass) :
    (s.abandon cls).slots = s.slots := rfl
@[simp] theorem State.abandon_scanEnd (s : State) (cls : FrameClass) :
    (s.abandon cls).scanEnd = s.scanEnd := rfl
@[simp] theorem State.abandon_sum (s : State) (cls : FrameClass) :
    (s.abandon cls).sum = s.sum := rfl
@[simp] theorem State.abandon_decl (s : State) (cls : FrameClass) :
    (s.abandon cls).decl = s.decl := rfl
@[simp] theorem State.abandon_starSeen (s : State) (cls : FrameClass) :
    (s.abandon cls).starSeen = s.starSeen := rfl
@[simp] theorem State.abandon_rb (s : State) (cls : FrameClass) :
    (s.abandon cls).rb = s.rb := rfl
@[simp] theorem State.abandon_rlen (s : State) (cls : FrameClass) :
    (s.abandon cls).rlen = s.rlen := rfl
@[simp] theorem State.abandon_pflag (s : State) (cls : FrameClass) :
    (s.abandon cls).pflag = s.pflag := rfl
@[simp] theorem State.abandon_status (s : State) (cls : FrameClass) :
    (s.abandon cls).status = s.status := rfl
@[simp] theorem State.abandon_phase (s : State) (cls : FrameClass) :
    (s.abandon cls).phase = s.phase := rfl
@[simp] theorem State.abandon_left (s : State) (cls : FrameClass) :
    (s.abandon cls).left = s.left := rfl
@[simp] theorem State.abandon_rx (s : State) (cls : FrameClass) :
    (s.abandon cls).rx = s.rx := rfl
@[simp] theorem State.abandon_tx (s : State) (cls : FrameClass) :
    (s.abandon cls).tx = s.tx := rfl
@[simp] theorem State.abandon_ctl (s : State) (cls : FrameClass) :
    (s.abandon cls).ctl = s.ctl := rfl
@[simp] theorem State.abandon_answers (s : State) (cls : FrameClass) :
    (s.abandon cls).answers = s.answers := rfl
@[simp] theorem State.abandon_draws (s : State) (cls : FrameClass) :
    (s.abandon cls).draws = s.draws := rfl
@[simp] theorem State.abandon_host (s : State) (cls : FrameClass) :
    (s.abandon cls).host = s.host := rfl
@[simp] theorem State.abandon_events (s : State) (cls : FrameClass) :
    (s.abandon cls).events = s.events ++ [⟨cls, s.liveBytes⟩] := rfl

/-! `State.txWrite` -/

@[simp] theorem State.txWrite_cfg (s : State) (bs : List Byte) :
    (s.txWrite bs).cfg = s.cfg := rfl
@[simp] theorem State.txWrite_acc (s : State) (bs : List Byte) :
    (s.txWrite bs).acc = s.acc := rfl
@[simp] theorem State.txWrite_len (s : State) (bs : List Byte) :
    (s.txWrite bs).len = s.len := rfl
@[simp] theorem State.txWrite_fb (s : State) (bs : List Byte) :
    (s.txWrite bs).fb = s.fb := rfl
@[simp] theorem State.txWrite_echo (s : State) (bs : List Byte) :
    (s.txWrite bs).echo = s.echo := rfl
@[simp] theorem State.txWrite_busy (s : State) (bs : List Byte) :
    (s.txWrite bs).busy = s.busy := rfl
@[simp] theorem State.txWrite_tcnt (s : State) (bs : List Byte) :
    (s.txWrite bs).tcnt = s.tcnt := rfl
@[simp] theorem State.txWrite_slots (s : State) (bs : List Byte) :
    (s.txWrite bs).slots = s.slots := rfl
@[simp] theorem State.txWrite_scanEnd (s : State) (bs : List Byte) :
    (s.txWrite bs).scanEnd = s.scanEnd := rfl
@[simp] theorem State.txWrite_sum (s : State) (bs : List Byte) :
    (s.txWrite bs).sum = s.sum := rfl
@[simp] theorem State.txWrite_decl (s : State) (bs : List Byte) :
    (s.txWrite bs).decl = s.decl := rfl
@[simp] theorem State.txWrite_starSeen (s : State) (bs : List Byte) :
    (s.txWrite bs).starSeen = s.starSeen := rfl
@[simp] theorem State.txWrite_rb (s : State) (bs : List Byte) :
    (s.txWrite bs).rb = s.rb := rfl
@[simp] theorem State.txWrite_rlen (s : State) (bs : List Byte) :
    (s.txWrite bs).rlen = s.rlen := rfl
@[simp] theorem State.txWrite_pflag (s : State) (bs : List Byte) :
    (s.txWrite bs).pflag = s.pflag := rfl
@[simp] theorem State.txWrite_status (s : State) (bs : List Byte) :
    (s.txWrite bs).status = s.status := rfl
@[simp] theorem State.txWrite_phase (s : State) (bs : List Byte) :
    (s.txWrite bs).phase = s.phase := rfl
@[simp] theorem State.txWrite_left (s : State) (bs : List Byte) :
    (s.txWrite bs).left = s.left := rfl
@[simp] theorem State.txWrite_rx (s : State) (bs : List Byte) :
    (s.txWrite bs).rx = s.rx := rfl
@[simp] theorem State.txWrite_tx (s : State) (bs : List Byte) :
    (s.txWrite bs).tx = s.tx ++ bs := rfl
@[simp] theorem State.txWrite_ctl (s : State) (bs : List Byte) :
    (s.txWrite bs).ctl = s.ctl := rfl
@[simp] theorem State.txWrite_answers (s : State) (bs : List Byte) :
    (s.txWrite bs).answers = s.answers := rfl
@[simp] theorem State.txWrite_draws (s : State) (bs : List Byte) :
    (s.txWrite bs).draws = s.draws := rfl
@[simp] theorem State.txWrite_host (s : State) (bs : List Byte) :
    (s.txWrite bs).host = s.host := rfl
@[simp] theorem State.txWrite_events (s : State) (bs : List Byte) :
    (s.txWrite bs).events = s.events := rfl

/-! `State.emitResponse` -/

@[simp] theorem State.emitResponse_cfg (s : State) (ok : Bool) :
    (s.emitResponse ok).cfg = s.cfg := rfl
@[simp] theorem State.emitResponse_acc (s : State) (ok : Bool) :
    (s.emitResponse ok).acc = s.acc := rfl
@[simp] theorem State.emitResponse_len (s : State) (ok : Bool) :
    (s.emitResponse ok).len = s.len := rfl
@[simp] theorem State.emitResponse_fb (s : State) (ok : Bool) :
    (s.emitResponse ok).fb = s.fb := rfl
@[simp] theorem State.emitResponse_echo (s : State) (ok : Bool) :
    (s.emitResponse ok).echo = s.echo := rfl
@[simp] theorem State.emitResponse_busy (s : State) (ok : Bool) :
    (s.emitResponse ok).busy = s.busy := rfl
@[simp] theorem State.emitResponse_tcnt (s : State) (ok : Bool) :
    (s.emitResponse ok).tcnt = s.tcnt := rfl
@[simp] theorem State.emitResponse_slots (s : State) (ok : Bool) :
    (s.emitResponse ok).slots = s.slots := rfl
@[simp] theorem State.emitResponse_scanEnd (s : State) (ok : Bool) :
    (s.emitResponse ok).scanEnd = s.scanEnd := rfl
@[simp] theorem State.emitResponse_sum (s : State) (ok : Bool) :
    (s.emitResponse ok).sum = s.sum := rfl
@[simp] theorem State.emitResponse_decl (s : State) (ok : Bool) :
    (s.emitResponse ok).decl = s.decl := rfl
@[simp] theorem State.emitResponse_starSeen (s : State) (ok : Bool) :
    (s.emitResponse ok).starSeen = s.starSeen := rfl
@[simp] theorem State.emitResponse_rb (s : State) (ok : Bool) :
    (s.emitResponse ok).rb = s.rb := rfl
@[simp] theorem State.emitResponse_rlen (s : State) (ok : Bool) :
    (s.emitResponse ok).rlen = s.rlen := rfl
@[simp] theorem State.emitResponse_pflag (s : State) (ok : Bool) :
    (s.emitResponse ok).pflag = s.pflag := rfl
@[simp] theorem State.emitResponse_status (s : State) (ok : Bool) :
    (s.emitResponse ok).status = s.status := rfl
@[simp] theorem State.emitResponse_phase (s : State) (ok : Bool) :
    (s.emitResponse ok).phase = s.phase := rfl
@[simp] theorem State.emitResponse_left (s : State) (ok : Bool) :
    (s.emitResponse ok).left = s.left := rfl
@[simp] theorem State.emitResponse_rx (s : State) (ok : Bool) :
    (s.emitResponse ok).rx = s.rx := rfl
@[simp] theorem State.emitResponse_tx (s : State) (ok : Bool) :
    (s.emitResponse ok).tx = s.tx ++ responseBytes s.cfg ok (s.payload ok) := rfl
@[simp] theorem State.emitResponse_ctl (s : State) (ok : Bool) :
    (s.emitResponse ok).ctl = s.ctl := rfl
@[simp] theorem State.emitResponse_answers (s : State) (ok : Bool) :
    (s.emitResponse ok).answers = s.answers := rfl
@[simp] theorem State.emitResponse_draws (s : State) (ok : Bool) :
    (s.emitResponse ok).draws = s.draws := rfl
@[simp] theorem State.emitResponse_host (s : State) (ok : Bool) :
    (s.emitResponse ok).host = s.host := rfl
@[simp] theorem State.emitResponse_events (s : State) (ok : Bool) :
    (s.emitResponse ok).events = s.events := rfl

/-! `State.called` -/

@[simp] theorem State.called_cfg (s : State) (op : CtlOp) :
    (s.called op).cfg = s.cfg := rfl
@[simp] theorem State.called_acc (s : State) (op : CtlOp) :
    (s.called op).acc = s.acc := rfl
@[simp] theorem State.called_len (s : State) (op : CtlOp) :
    (s.called op).len = s.len := rfl
@[simp] theorem State.called_fb (s : State) (op : CtlOp) :
    (s.called op).fb = s.fb := rfl
@[simp] theorem State.called_echo (s : State) (op : CtlOp) :
    (s.called op).echo = s.echo := rfl
@[simp] theorem State.called_busy (s : State) (op : CtlOp) :
    (s.called op).busy = s.busy := rfl
@[simp] theorem State.called_tcnt (s : State) (op : CtlOp) :
    (s.called op).tcnt = s.tcnt := rfl
@[simp] theorem State.called_slots (s : State) (op : CtlOp) :
    (s.called op).slots = s.slots := rfl
@[simp] theorem State.called_scanEnd (s : State) (op : CtlOp) :
    (s.called op).scanEnd = s.scanEnd := rfl
@[simp] theorem State.called_sum (s : State) (op : CtlOp) :
    (s.called op).sum = s.sum := rfl
@[simp] theorem State.called_decl (s : State) (op : CtlOp) :
    (s.called op).decl = s.decl := rfl
@[simp] theorem State.called_starSeen (s : State) (op : CtlOp) :
    (s.called op).starSeen = s.starSeen := rfl
@[simp] theorem State.called_rb (s : State) (op : CtlOp) :
    (s.called op).rb = s.rb := rfl
@[simp] theorem State.called_rlen (s : State) (op : CtlOp) :
    (s.called op).rlen = s.rlen := rfl
@[simp] theorem State.called_pflag (s : State) (op : CtlOp) :
    (s.called op).pflag = s.pflag := rfl
@[simp] theorem State.called_status (s : State) (op : CtlOp) :
    (s.called op).status = s.status := rfl
@[simp] theorem State.called_phase (s : State) (op : CtlOp) :
    (s.called op).phase = s.phase := rfl
@[simp] theorem State.called_left (s : State) (op : CtlOp) :
    (s.called op).left = s.left := rfl
@[simp] theorem State.called_rx (s : State) (op : CtlOp) :
    (s.called op).rx = s.rx := rfl
@[simp] theorem State.called_tx (s : State) (op : CtlOp) :
    (s.called op).tx = s.tx := rfl
@[simp] theorem State.called_ctl (s : State) (op : CtlOp) :
    (s.called op).ctl = s.ctl ++ [op] := rfl
@[simp] theorem State.called_answers (s : State) (op : CtlOp) :
    (s.called op).answers = s.answers.tail := rfl
@[simp] theorem State.called_draws (s : State) (op : CtlOp) :
    (s.called op).draws = if s.answers = [] then s.draws + 1 else s.draws := rfl
@[simp] theorem State.called_host (s : State) (op : CtlOp) :
    (s.called op).host = s.host := rfl
@[simp] theorem State.called_events (s : State) (op : CtlOp) :
    (s.called op).events = s.events := rfl

/-! `State.concluded` -/

@[simp] theorem State.concluded_cfg (s : State) (v : BitVec 8) (cls : FrameClass) :
    (s.concluded v cls).cfg = s.cfg := rfl
@[simp] theorem State.concluded_acc (s : State) (v : BitVec 8) (cls : FrameClass) :
    (s.concluded v cls).acc = s.acc := rfl
@[simp] theorem State.concluded_len (s : State) (v : BitVec 8) (cls : FrameClass) :
    (s.concluded v cls).len = s.len := rfl
@[simp] theorem State.concluded_fb (s : State) (v : BitVec 8) (cls : FrameClass) :
    (s.concluded v cls).fb = s.fb := rfl
@[simp] theorem State.concluded_echo (s : State) (v : BitVec 8) (cls : FrameClass) :
    (s.concluded v cls).echo = s.echo := rfl
@[simp] theorem State.concluded_busy (s : State) (v : BitVec 8) (cls : FrameClass) :
    (s.concluded v cls).busy = s.busy := rfl
@[simp] theorem State.concluded_tcnt (s : State) (v : BitVec 8) (cls : FrameClass) :
    (s.concluded v cls).tcnt = s.tcnt := rfl
@[simp] theorem State.concluded_slots (s : State) (v : BitVec 8) (cls : FrameClass) :
    (s.concluded v cls).slots = s.slots := rfl
@[simp] theorem State.concluded_scanEnd (s : State) (v : BitVec 8) (cls : FrameClass) :
    (s.concluded v cls).scanEnd = s.scanEnd := rfl
@[simp] theorem State.concluded_sum (s : State) (v : BitVec 8) (cls : FrameClass) :
    (s.concluded v cls).sum = s.sum := rfl
@[simp] theorem State.concluded_decl (s : State) (v : BitVec 8) (cls : FrameClass) :
    (s.concluded v cls).decl = s.decl := rfl
@[simp] theorem State.concluded_starSeen (s : State) (v : BitVec 8) (cls : FrameClass) :
    (s.concluded v cls).starSeen = s.starSeen := rfl
@[simp] theorem State.concluded_rb (s : State) (v : BitVec 8) (cls : FrameClass) :
    (s.concluded v cls).rb = s.rb := rfl
@[simp] theorem State.concluded_rlen (s : State) (v : BitVec 8) (cls : FrameClass) :
    (s.concluded v cls).rlen = s.rlen := rfl
@[simp] theorem State.concluded_pflag (s : State) (v : BitVec 8) (cls : FrameClass) :
    (s.concluded v cls).pflag = s.pflag := rfl
@[simp] theorem State.concluded_status (s : State) (v : BitVec 8) (cls : FrameClass) :
    (s.concluded v cls).status = v := rfl
@[simp] theorem State.concluded_phase (s : State) (v : BitVec 8) (cls : FrameClass) :
    (s.concluded v cls).phase = .respond cls := rfl
@[simp] theorem State.concluded_left (s : State) (v : BitVec 8) (cls : FrameClass) :
    (s.concluded v cls).left = s.left := rfl
@[simp] theorem State.concluded_rx (s : State) (v : BitVec 8) (cls : FrameClass) :
    (s.concluded v cls).rx = s.rx := rfl
@[simp] theorem State.concluded_tx (s : State) (v : BitVec 8) (cls : FrameClass) :
    (s.concluded v cls).tx = s.tx := rfl
@[simp] theorem State.concluded_ctl (s : State) (v : BitVec 8) (cls : FrameClass) :
    (s.concluded v cls).ctl = s.ctl := rfl
@[simp] theorem State.concluded_answers (s : State) (v : BitVec 8) (cls : FrameClass) :
    (s.concluded v cls).answers = s.answers := rfl
@[simp] theorem State.concluded_draws (s : State) (v : BitVec 8) (cls : FrameClass) :
    (s.concluded v cls).draws = s.draws := rfl
@[simp] theorem State.concluded_host (s : State) (v : BitVec 8) (cls : FrameClass) :
    (s.concluded v cls).host = s.host := rfl
@[simp] theorem State.concluded_events (s : State) (v : BitVec 8) (cls : FrameClass) :
    (s.concluded v cls).events = s.events := rfl

/-! `State.finished` -/

@[simp] theorem State.finished_cfg (s : State) (v : BitVec 8) :
    (s.finished v).cfg = s.cfg := rfl
@[simp] theorem State.finished_acc (s : State) (v : BitVec 8) :
    (s.finished v).acc = s.acc := rfl
@[simp] theorem State.finished_len (s : State) (v : BitVec 8) :
    (s.finished v).len = s.len := rfl
@[simp] theorem State.finished_fb (s : State) (v : BitVec 8) :
    (s.finished v).fb = s.fb := rfl
@[simp] theorem State.finished_echo (s : State) (v : BitVec 8) :
    (s.finished v).echo = s.echo := rfl
@[simp] theorem State.finished_busy (s : State) (v : BitVec 8) :
    (s.finished v).busy = s.busy := rfl
@[simp] theorem State.finished_tcnt (s : State) (v : BitVec 8) :
    (s.finished v).tcnt = s.tcnt := rfl
@[simp] theorem State.finished_slots (s : State) (v : BitVec 8) :
    (s.finished v).slots = s.slots := rfl
@[simp] theorem State.finished_scanEnd (s : State) (v : BitVec 8) :
    (s.finished v).scanEnd = s.scanEnd := rfl
@[simp] theorem State.finished_sum (s : State) (v : BitVec 8) :
    (s.finished v).sum = s.sum := rfl
@[simp] theorem State.finished_decl (s : State) (v : BitVec 8) :
    (s.finished v).decl = s.decl := rfl
@[simp] theorem State.finished_starSeen (s : State) (v : BitVec 8) :
    (s.finished v).starSeen = s.starSeen := rfl
@[simp] theorem State.finished_rb (s : State) (v : BitVec 8) :
    (s.finished v).rb = s.rb := rfl
@[simp] theorem State.finished_rlen (s : State) (v : BitVec 8) :
    (s.finished v).rlen = s.rlen := rfl
@[simp] theorem State.finished_pflag (s : State) (v : BitVec 8) :
    (s.finished v).pflag = s.pflag := rfl
@[simp] theorem State.finished_status (s : State) (v : BitVec 8) :
    (s.finished v).status = v := rfl
@[simp] theorem State.finished_phase (s : State) (v : BitVec 8) :
    (s.finished v).phase = .respond (handlerClass v) := rfl
@[simp] theorem State.finished_left (s : State) (v : BitVec 8) :
    (s.finished v).left = s.left := rfl
@[simp] theorem State.finished_rx (s : State) (v : BitVec 8) :
    (s.finished v).rx = s.rx := rfl
@[simp] theorem State.finished_tx (s : State) (v : BitVec 8) :
    (s.finished v).tx = s.tx := rfl
@[simp] theorem State.finished_ctl (s : State) (v : BitVec 8) :
    (s.finished v).ctl = s.ctl := rfl
@[simp] theorem State.finished_answers (s : State) (v : BitVec 8) :
    (s.finished v).answers = s.answers := rfl
@[simp] theorem State.finished_draws (s : State) (v : BitVec 8) :
    (s.finished v).draws = s.draws := rfl
@[simp] theorem State.finished_host (s : State) (v : BitVec 8) :
    (s.finished v).host = s.host := rfl
@[simp] theorem State.finished_events (s : State) (v : BitVec 8) :
    (s.finished v).events = s.events := rfl

/-! `State.clearPayload` -/

@[simp] theorem State.clearPayload_cfg (s : State) :
    (s.clearPayload).cfg = s.cfg := rfl
@[simp] theorem State.clearPayload_acc (s : State) :
    (s.clearPayload).acc = s.acc := rfl
@[simp] theorem State.clearPayload_len (s : State) :
    (s.clearPayload).len = s.len := rfl
@[simp] theorem State.clearPayload_fb (s : State) :
    (s.clearPayload).fb = s.fb := rfl
@[simp] theorem State.clearPayload_echo (s : State) :
    (s.clearPayload).echo = s.echo := rfl
@[simp] theorem State.clearPayload_busy (s : State) :
    (s.clearPayload).busy = s.busy := rfl
@[simp] theorem State.clearPayload_tcnt (s : State) :
    (s.clearPayload).tcnt = s.tcnt := rfl
@[simp] theorem State.clearPayload_slots (s : State) :
    (s.clearPayload).slots = s.slots := rfl
@[simp] theorem State.clearPayload_scanEnd (s : State) :
    (s.clearPayload).scanEnd = s.scanEnd := rfl
@[simp] theorem State.clearPayload_sum (s : State) :
    (s.clearPayload).sum = s.sum := rfl
@[simp] theorem State.clearPayload_decl (s : State) :
    (s.clearPayload).decl = s.decl := rfl
@[simp] theorem State.clearPayload_starSeen (s : State) :
    (s.clearPayload).starSeen = s.starSeen := rfl
@[simp] theorem State.clearPayload_rb (s : State) :
    (s.clearPayload).rb = s.rb := rfl
@[simp] theorem State.clearPayload_rlen (s : State) :
    (s.clearPayload).rlen = 0 := rfl
@[simp] theorem State.clearPayload_pflag (s : State) :
    (s.clearPayload).pflag = false := rfl
@[simp] theorem State.clearPayload_status (s : State) :
    (s.clearPayload).status = s.status := rfl
@[simp] theorem State.clearPayload_phase (s : State) :
    (s.clearPayload).phase = s.phase := rfl
@[simp] theorem State.clearPayload_left (s : State) :
    (s.clearPayload).left = s.left := rfl
@[simp] theorem State.clearPayload_rx (s : State) :
    (s.clearPayload).rx = s.rx := rfl
@[simp] theorem State.clearPayload_tx (s : State) :
    (s.clearPayload).tx = s.tx := rfl
@[simp] theorem State.clearPayload_ctl (s : State) :
    (s.clearPayload).ctl = s.ctl := rfl
@[simp] theorem State.clearPayload_answers (s : State) :
    (s.clearPayload).answers = s.answers := rfl
@[simp] theorem State.clearPayload_draws (s : State) :
    (s.clearPayload).draws = s.draws := rfl
@[simp] theorem State.clearPayload_host (s : State) :
    (s.clearPayload).host = s.host := rfl
@[simp] theorem State.clearPayload_events (s : State) :
    (s.clearPayload).events = s.events := rfl

/-! `State.setPayload` -/

@[simp] theorem State.setPayload_cfg (s : State) (p : List Byte) :
    (s.setPayload p).cfg = s.cfg := rfl
@[simp] theorem State.setPayload_acc (s : State) (p : List Byte) :
    (s.setPayload p).acc = s.acc := rfl
@[simp] theorem State.setPayload_len (s : State) (p : List Byte) :
    (s.setPayload p).len = s.len := rfl
@[simp] theorem State.setPayload_fb (s : State) (p : List Byte) :
    (s.setPayload p).fb = s.fb := rfl
@[simp] theorem State.setPayload_echo (s : State) (p : List Byte) :
    (s.setPayload p).echo = s.echo := rfl
@[simp] theorem State.setPayload_busy (s : State) (p : List Byte) :
    (s.setPayload p).busy = s.busy := rfl
@[simp] theorem State.setPayload_tcnt (s : State) (p : List Byte) :
    (s.setPayload p).tcnt = s.tcnt := rfl
@[simp] theorem State.setPayload_slots (s : State) (p : List Byte) :
    (s.setPayload p).slots = s.slots := rfl
@[simp] theorem State.setPayload_scanEnd (s : State) (p : List Byte) :
    (s.setPayload p).scanEnd = s.scanEnd := rfl
@[simp] theorem State.setPayload_sum (s : State) (p : List Byte) :
    (s.setPayload p).sum = s.sum := rfl
@[simp] theorem State.setPayload_decl (s : State) (p : List Byte) :
    (s.setPayload p).decl = s.decl := rfl
@[simp] theorem State.setPayload_starSeen (s : State) (p : List Byte) :
    (s.setPayload p).starSeen = s.starSeen := rfl
@[simp] theorem State.setPayload_rb (s : State) (p : List Byte) :
    (s.setPayload p).rb = p.take (min p.length s.cfg.respLen) ++ s.rb.drop (min p.length s.cfg.respLen) := rfl
@[simp] theorem State.setPayload_rlen (s : State) (p : List Byte) :
    (s.setPayload p).rlen = min p.length s.cfg.respLen := rfl
@[simp] theorem State.setPayload_pflag (s : State) (p : List Byte) :
    (s.setPayload p).pflag = true := rfl
@[simp] theorem State.setPayload_status (s : State) (p : List Byte) :
    (s.setPayload p).status = s.status := rfl
@[simp] theorem State.setPayload_phase (s : State) (p : List Byte) :
    (s.setPayload p).phase = s.phase := rfl
@[simp] theorem State.setPayload_left (s : State) (p : List Byte) :
    (s.setPayload p).left = s.left := rfl
@[simp] theorem State.setPayload_rx (s : State) (p : List Byte) :
    (s.setPayload p).rx = s.rx := rfl
@[simp] theorem State.setPayload_tx (s : State) (p : List Byte) :
    (s.setPayload p).tx = s.tx := rfl
@[simp] theorem State.setPayload_ctl (s : State) (p : List Byte) :
    (s.setPayload p).ctl = s.ctl := rfl
@[simp] theorem State.setPayload_answers (s : State) (p : List Byte) :
    (s.setPayload p).answers = s.answers := rfl
@[simp] theorem State.setPayload_draws (s : State) (p : List Byte) :
    (s.setPayload p).draws = s.draws := rfl
@[simp] theorem State.setPayload_host (s : State) (p : List Byte) :
    (s.setPayload p).host = s.host := rfl
@[simp] theorem State.setPayload_events (s : State) (p : List Byte) :
    (s.setPayload p).events = s.events := rfl

/-! `State.tokenize` -/

@[simp] theorem State.tokenize_cfg (s : State) :
    (s.tokenize).cfg = s.cfg := rfl
@[simp] theorem State.tokenize_acc (s : State) :
    (s.tokenize).acc = s.acc := rfl
@[simp] theorem State.tokenize_len (s : State) :
    (s.tokenize).len = s.len := rfl
@[simp] theorem State.tokenize_fb (s : State) :
    (s.tokenize).fb = s.fb := rfl
@[simp] theorem State.tokenize_echo (s : State) :
    (s.tokenize).echo = s.echo := rfl
@[simp] theorem State.tokenize_busy (s : State) :
    (s.tokenize).busy = s.busy := rfl
@[simp] theorem State.tokenize_tcnt (s : State) :
    (s.tokenize).tcnt = s.scan.tcnt := rfl
@[simp] theorem State.tokenize_slots (s : State) :
    (s.tokenize).slots = setTe s.cfg.maxTokens (s.scan.tcnt - 1) s.scanStop s.scan.slots := rfl
@[simp] theorem State.tokenize_scanEnd (s : State) :
    (s.tokenize).scanEnd = s.scanStop := rfl
@[simp] theorem State.tokenize_sum (s : State) :
    (s.tokenize).sum = s.scan.sum := rfl
@[simp] theorem State.tokenize_decl (s : State) :
    (s.tokenize).decl = s.scan.decl := rfl
@[simp] theorem State.tokenize_starSeen (s : State) :
    (s.tokenize).starSeen = s.scan.starSeen := rfl
@[simp] theorem State.tokenize_rb (s : State) :
    (s.tokenize).rb = s.rb := rfl
@[simp] theorem State.tokenize_rlen (s : State) :
    (s.tokenize).rlen = s.rlen := rfl
@[simp] theorem State.tokenize_pflag (s : State) :
    (s.tokenize).pflag = s.pflag := rfl
@[simp] theorem State.tokenize_status (s : State) :
    (s.tokenize).status = s.status := rfl
@[simp] theorem State.tokenize_phase (s : State) :
    (s.tokenize).phase = s.phase := rfl
@[simp] theorem State.tokenize_left (s : State) :
    (s.tokenize).left = s.left := rfl
@[simp] theorem State.tokenize_rx (s : State) :
    (s.tokenize).rx = s.rx := rfl
@[simp] theorem State.tokenize_tx (s : State) :
    (s.tokenize).tx = s.tx := rfl
@[simp] theorem State.tokenize_ctl (s : State) :
    (s.tokenize).ctl = s.ctl := rfl
@[simp] theorem State.tokenize_answers (s : State) :
    (s.tokenize).answers = s.answers := rfl
@[simp] theorem State.tokenize_draws (s : State) :
    (s.tokenize).draws = s.draws := rfl
@[simp] theorem State.tokenize_host (s : State) :
    (s.tokenize).host = s.host := rfl
@[simp] theorem State.tokenize_events (s : State) :
    (s.tokenize).events = s.events := rfl

/-! `State.beginBatch` -/

@[simp] theorem State.beginBatch_cfg (s : State) (n : Nat) :
    (s.beginBatch n).cfg = s.cfg := rfl
@[simp] theorem State.beginBatch_acc (s : State) (n : Nat) :
    (s.beginBatch n).acc = s.acc := rfl
@[simp] theorem State.beginBatch_len (s : State) (n : Nat) :
    (s.beginBatch n).len = s.len := rfl
@[simp] theorem State.beginBatch_fb (s : State) (n : Nat) :
    (s.beginBatch n).fb = s.fb := rfl
@[simp] theorem State.beginBatch_echo (s : State) (n : Nat) :
    (s.beginBatch n).echo = s.echo := rfl
@[simp] theorem State.beginBatch_busy (s : State) (n : Nat) :
    (s.beginBatch n).busy = s.busy := rfl
@[simp] theorem State.beginBatch_tcnt (s : State) (n : Nat) :
    (s.beginBatch n).tcnt = s.tcnt := rfl
@[simp] theorem State.beginBatch_slots (s : State) (n : Nat) :
    (s.beginBatch n).slots = s.slots := rfl
@[simp] theorem State.beginBatch_scanEnd (s : State) (n : Nat) :
    (s.beginBatch n).scanEnd = s.scanEnd := rfl
@[simp] theorem State.beginBatch_sum (s : State) (n : Nat) :
    (s.beginBatch n).sum = s.sum := rfl
@[simp] theorem State.beginBatch_decl (s : State) (n : Nat) :
    (s.beginBatch n).decl = s.decl := rfl
@[simp] theorem State.beginBatch_starSeen (s : State) (n : Nat) :
    (s.beginBatch n).starSeen = s.starSeen := rfl
@[simp] theorem State.beginBatch_rb (s : State) (n : Nat) :
    (s.beginBatch n).rb = s.rb := rfl
@[simp] theorem State.beginBatch_rlen (s : State) (n : Nat) :
    (s.beginBatch n).rlen = s.rlen := rfl
@[simp] theorem State.beginBatch_pflag (s : State) (n : Nat) :
    (s.beginBatch n).pflag = s.pflag := rfl
@[simp] theorem State.beginBatch_status (s : State) (n : Nat) :
    (s.beginBatch n).status = s.status := rfl
@[simp] theorem State.beginBatch_phase (s : State) (n : Nat) :
    (s.beginBatch n).phase = .receive := rfl
@[simp] theorem State.beginBatch_left (s : State) (n : Nat) :
    (s.beginBatch n).left = s.rx.length - n := rfl
@[simp] theorem State.beginBatch_rx (s : State) (n : Nat) :
    (s.beginBatch n).rx = s.rx := rfl
@[simp] theorem State.beginBatch_tx (s : State) (n : Nat) :
    (s.beginBatch n).tx = s.tx := rfl
@[simp] theorem State.beginBatch_ctl (s : State) (n : Nat) :
    (s.beginBatch n).ctl = s.ctl := rfl
@[simp] theorem State.beginBatch_answers (s : State) (n : Nat) :
    (s.beginBatch n).answers = s.answers := rfl
@[simp] theorem State.beginBatch_draws (s : State) (n : Nat) :
    (s.beginBatch n).draws = s.draws := rfl
@[simp] theorem State.beginBatch_host (s : State) (n : Nat) :
    (s.beginBatch n).host = s.host := rfl
@[simp] theorem State.beginBatch_events (s : State) (n : Nat) :
    (s.beginBatch n).events = s.events := rfl

/-! `State.cutTx` -/

@[simp] theorem State.cutTx_cfg (s : State) (a b : Nat) :
    (s.cutTx a b).cfg = s.cfg := rfl
@[simp] theorem State.cutTx_acc (s : State) (a b : Nat) :
    (s.cutTx a b).acc = s.acc := rfl
@[simp] theorem State.cutTx_len (s : State) (a b : Nat) :
    (s.cutTx a b).len = s.len := rfl
@[simp] theorem State.cutTx_fb (s : State) (a b : Nat) :
    (s.cutTx a b).fb = s.fb := rfl
@[simp] theorem State.cutTx_echo (s : State) (a b : Nat) :
    (s.cutTx a b).echo = s.echo := rfl
@[simp] theorem State.cutTx_busy (s : State) (a b : Nat) :
    (s.cutTx a b).busy = s.busy := rfl
@[simp] theorem State.cutTx_tcnt (s : State) (a b : Nat) :
    (s.cutTx a b).tcnt = s.tcnt := rfl
@[simp] theorem State.cutTx_slots (s : State) (a b : Nat) :
    (s.cutTx a b).slots = s.slots := rfl
@[simp] theorem State.cutTx_scanEnd (s : State) (a b : Nat) :
    (s.cutTx a b).scanEnd = s.scanEnd := rfl
@[simp] theorem State.cutTx_sum (s : State) (a b : Nat) :
    (s.cutTx a b).sum = s.sum := rfl
@[simp] theorem State.cutTx_decl (s : State) (a b : Nat) :
    (s.cutTx a b).decl = s.decl := rfl
@[simp] theorem State.cutTx_starSeen (s : State) (a b : Nat) :
    (s.cutTx a b).starSeen = s.starSeen := rfl
@[simp] theorem State.cutTx_rb (s : State) (a b : Nat) :
    (s.cutTx a b).rb = s.rb := rfl
@[simp] theorem State.cutTx_rlen (s : State) (a b : Nat) :
    (s.cutTx a b).rlen = s.rlen := rfl
@[simp] theorem State.cutTx_pflag (s : State) (a b : Nat) :
    (s.cutTx a b).pflag = s.pflag := rfl
@[simp] theorem State.cutTx_status (s : State) (a b : Nat) :
    (s.cutTx a b).status = s.status := rfl
@[simp] theorem State.cutTx_phase (s : State) (a b : Nat) :
    (s.cutTx a b).phase = s.phase := rfl
@[simp] theorem State.cutTx_left (s : State) (a b : Nat) :
    (s.cutTx a b).left = s.left := rfl
@[simp] theorem State.cutTx_rx (s : State) (a b : Nat) :
    (s.cutTx a b).rx = s.rx := rfl
@[simp] theorem State.cutTx_tx (s : State) (a b : Nat) :
    (s.cutTx a b).tx = s.tx.take (a + b) := rfl
@[simp] theorem State.cutTx_ctl (s : State) (a b : Nat) :
    (s.cutTx a b).ctl = s.ctl := rfl
@[simp] theorem State.cutTx_answers (s : State) (a b : Nat) :
    (s.cutTx a b).answers = s.answers := rfl
@[simp] theorem State.cutTx_draws (s : State) (a b : Nat) :
    (s.cutTx a b).draws = s.draws := rfl
@[simp] theorem State.cutTx_host (s : State) (a b : Nat) :
    (s.cutTx a b).host = s.host := rfl
@[simp] theorem State.cutTx_events (s : State) (a b : Nat) :
    (s.cutTx a b).events = s.events := rfl

/-! `State.respondStep` -/

@[simp] theorem State.respondStep_cfg (s : State) (cls : FrameClass) :
    (s.respondStep cls).cfg = s.cfg := rfl
@[simp] theorem State.respondStep_acc (s : State) (cls : FrameClass) :
    (s.respondStep cls).acc = false := rfl
@[simp] theorem State.respondStep_len (s : State) (cls : FrameClass) :
    (s.respondStep cls).len = 0 := rfl
@[simp] theorem State.respondStep_fb (s : State) (cls : FrameClass) :
    (s.respondStep cls).fb = s.fb := rfl
@[simp] theorem State.respondStep_echo (s : State) (cls : FrameClass) :
    (s.respondStep cls).echo = s.echo := rfl
@[simp] theorem State.respondStep_busy (s : State) (cls : FrameClass) :
    (s.respondStep cls).busy = s.busy := rfl
@[simp] theorem State.respondStep_tcnt (s : State) (cls : FrameClass) :
    (s.respondStep cls).tcnt = s.tcnt := rfl
@[simp] theorem State.respondStep_slots (s : State) (cls : FrameClass) :
    (s.respondStep cls).slots = s.slots := rfl
@[simp] theorem State.respondStep_scanEnd (s : State) (cls : FrameClass) :
    (s.respondStep cls).scanEnd = s.scanEnd := rfl
@[simp] theorem State.respondStep_sum (s : State) (cls : FrameClass) :
    (s.respondStep cls).sum = s.sum := rfl
@[simp] theorem State.respondStep_decl (s : State) (cls : FrameClass) :
    (s.respondStep cls).decl = s.decl := rfl
@[simp] theorem State.respondStep_starSeen (s : State) (cls : FrameClass) :
    (s.respondStep cls).starSeen = s.starSeen := rfl
@[simp] theorem State.respondStep_rb (s : State) (cls : FrameClass) :
    (s.respondStep cls).rb = s.rb := rfl
@[simp] theorem State.respondStep_rlen (s : State) (cls : FrameClass) :
    (s.respondStep cls).rlen = s.rlen := rfl
@[simp] theorem State.respondStep_pflag (s : State) (cls : FrameClass) :
    (s.respondStep cls).pflag = s.pflag := rfl
@[simp] theorem State.respondStep_status (s : State) (cls : FrameClass) :
    (s.respondStep cls).status = s.status := rfl
@[simp] theorem State.respondStep_phase (s : State) (cls : FrameClass) :
    (s.respondStep cls).phase = .receive := rfl
@[simp] theorem State.respondStep_left (s : State) (cls : FrameClass) :
    (s.respondStep cls).left = s.left := rfl
@[simp] theorem State.respondStep_rx (s : State) (cls : FrameClass) :
    (s.respondStep cls).rx = s.rx := rfl
@[simp] theorem State.respondStep_tx (s : State) (cls : FrameClass) :
    (s.respondStep cls).tx = s.tx ++ responseBytes s.cfg s.okBit (s.payload s.okBit) := rfl
@[simp] theorem State.respondStep_ctl (s : State) (cls : FrameClass) :
    (s.respondStep cls).ctl = s.ctl := rfl
@[simp] theorem State.respondStep_answers (s : State) (cls : FrameClass) :
    (s.respondStep cls).answers = s.answers := rfl
@[simp] theorem State.respondStep_draws (s : State) (cls : FrameClass) :
    (s.respondStep cls).draws = s.draws := rfl
@[simp] theorem State.respondStep_host (s : State) (cls : FrameClass) :
    (s.respondStep cls).host = s.host := rfl
@[simp] theorem State.respondStep_events (s : State) (cls : FrameClass) :
    (s.respondStep cls).events = s.events ++ [⟨cls, s.liveBytes⟩] := rfl

/-! `State.systemReset` -/

@[simp] theorem State.systemReset_cfg (s : State) (lost : List Bool) :
    (s.systemReset lost).cfg = s.cfg := rfl
@[simp] theorem State.systemReset_acc (s : State) (lost : List Bool) :
    (s.systemReset lost).acc = false := rfl
@[simp] theorem State.systemReset_len (s : State) (lost : List Bool) :
    (s.systemReset lost).len = 0 := rfl
@[simp] theorem State.systemReset_fb (s : State) (lost : List Bool) :
    (s.systemReset lost).fb = [] := rfl
@[simp] theorem State.systemReset_echo (s : State) (lost : List Bool) :
    (s.systemReset lost).echo = false := rfl
@[simp] theorem State.systemReset_busy (s : State) (lost : List Bool) :
    (s.systemReset lost).busy = false := rfl
@[simp] theorem State.systemReset_tcnt (s : State) (lost : List Bool) :
    (s.systemReset lost).tcnt = 0 := rfl
@[simp] theorem State.systemReset_slots (s : State) (lost : List Bool) :
    (s.systemReset lost).slots = List.replicate s.cfg.maxTokens ⟨0, 0⟩ := rfl
@[simp] theorem State.systemReset_scanEnd (s : State) (lost : List Bool) :
    (s.systemReset lost).scanEnd = 0 := rfl
@[simp] theorem State.systemReset_sum (s : State) (lost : List Bool) :
    (s.systemReset lost).sum = 0#8 := rfl
@[simp] theorem State.systemReset_decl (s : State) (lost : List Bool) :
    (s.systemReset lost).decl = 0#8 := rfl
@[simp] theorem State.systemReset_starSeen (s : State) (lost : List Bool) :
    (s.systemReset lost).starSeen = false := rfl
@[simp] theorem State.systemReset_rb (s : State) (lost : List Bool) :
    (s.systemReset lost).rb = List.replicate s.cfg.respLen nul := rfl
@[simp] theorem State.systemReset_rlen (s : State) (lost : List Bool) :
    (s.systemReset lost).rlen = 0 := rfl
@[simp] theorem State.systemReset_pflag (s : State) (lost : List Bool) :
    (s.systemReset lost).pflag = false := rfl
@[simp] theorem State.systemReset_status (s : State) (lost : List Bool) :
    (s.systemReset lost).status = 0#8 := rfl
@[simp] theorem State.systemReset_phase (s : State) (lost : List Bool) :
    (s.systemReset lost).phase = .receive := rfl
@[simp] theorem State.systemReset_left (s : State) (lost : List Bool) :
    (s.systemReset lost).left = 0 := rfl
@[simp] theorem State.systemReset_rx (s : State) (lost : List Bool) :
    (s.systemReset lost).rx = keepPending lost s.rx := rfl
@[simp] theorem State.systemReset_tx (s : State) (lost : List Bool) :
    (s.systemReset lost).tx = s.tx := rfl
@[simp] theorem State.systemReset_ctl (s : State) (lost : List Bool) :
    (s.systemReset lost).ctl = s.ctl := rfl
@[simp] theorem State.systemReset_answers (s : State) (lost : List Bool) :
    (s.systemReset lost).answers = s.answers := rfl
@[simp] theorem State.systemReset_draws (s : State) (lost : List Bool) :
    (s.systemReset lost).draws = s.draws := rfl
@[simp] theorem State.systemReset_host (s : State) (lost : List Bool) :
    (s.systemReset lost).host = s.host := rfl
@[simp] theorem State.systemReset_events (s : State) (lost : List Bool) :
    (s.systemReset lost).events = s.events ++ [⟨.reset, s.liveBytes⟩] := rfl

/-! `State.notify` -/

@[simp] theorem State.notify_cfg (s : State) (r : Reply) :
    (s.notify r).cfg = s.cfg := by
  unfold State.notify; split <;> rfl
@[simp] theorem State.notify_acc (s : State) (r : Reply) :
    (s.notify r).acc = s.acc := by
  unfold State.notify; split <;> rfl
@[simp] theorem State.notify_len (s : State) (r : Reply) :
    (s.notify r).len = s.len := by
  unfold State.notify; split <;> rfl
@[simp] theorem State.notify_fb (s : State) (r : Reply) :
    (s.notify r).fb = s.fb := by
  unfold State.notify; split <;> rfl
@[simp] theorem State.notify_echo (s : State) (r : Reply) :
    (s.notify r).echo = s.echo := by
  unfold State.notify; split <;> rfl
@[simp] theorem State.notify_busy (s : State) (r : Reply) :
    (s.notify r).busy = s.busy := by
  unfold State.notify; split <;> rfl
@[simp] theorem State.notify_tcnt (s : State) (r : Reply) :
    (s.notify r).tcnt = s.tcnt := by
  unfold State.notify; split <;> rfl
@[simp] theorem State.notify_slots (s : State) (r : Reply) :
    (s.notify r).slots = s.slots := by
  unfold State.notify; split <;> rfl
@[simp] theorem State.notify_scanEnd (s : State) (r : Reply) :
    (s.notify r).scanEnd = s.scanEnd := by
  unfold State.notify; split <;> rfl
@[simp] theorem State.notify_sum (s : State) (r : Reply) :
    (s.notify r).sum = s.sum := by
  unfold State.notify; split <;> rfl
@[simp] theorem State.notify_decl (s : State) (r : Reply) :
    (s.notify r).decl = s.decl := by
  unfold State.notify; split <;> rfl
@[simp] theorem State.notify_starSeen (s : State) (r : Reply) :
    (s.notify r).starSeen = s.starSeen := by
  unfold State.notify; split <;> rfl
@[simp] theorem State.notify_rb (s : State) (r : Reply) :
    (s.notify r).rb = s.rb := by
  unfold State.notify; split <;> rfl
@[simp] theorem State.notify_rlen (s : State) (r : Reply) :
    (s.notify r).rlen = s.rlen := by
  unfold State.notify; split <;> rfl
@[simp] theorem State.notify_pflag (s : State) (r : Reply) :
    (s.notify r).pflag = s.pflag := by
  unfold State.notify; split <;> rfl
@[simp] theorem State.notify_status (s : State) (r : Reply) :
    (s.notify r).status = s.status := by
  unfold State.notify; split <;> rfl
@[simp] theorem State.notify_phase (s : State) (r : Reply) :
    (s.notify r).phase = s.phase := by
  unfold State.notify; split <;> rfl
@[simp] theorem State.notify_left (s : State) (r : Reply) :
    (s.notify r).left = s.left := by
  unfold State.notify; split <;> rfl
@[simp] theorem State.notify_rx (s : State) (r : Reply) :
    (s.notify r).rx = s.rx := by
  unfold State.notify; split <;> rfl
@[simp] theorem State.notify_tx (s : State) (r : Reply) :
    (s.notify r).tx = if r.changed then s.tx ++ notificationBytes s.cfg r.st else s.tx := by
  unfold State.notify; split <;> rfl
@[simp] theorem State.notify_ctl (s : State) (r : Reply) :
    (s.notify r).ctl = s.ctl := by
  unfold State.notify; split <;> rfl
@[simp] theorem State.notify_answers (s : State) (r : Reply) :
    (s.notify r).answers = s.answers := by
  unfold State.notify; split <;> rfl
@[simp] theorem State.notify_draws (s : State) (r : Reply) :
    (s.notify r).draws = s.draws := by
  unfold State.notify; split <;> rfl
@[simp] theorem State.notify_host (s : State) (r : Reply) :
    (s.notify r).host = s.host := by
  unfold State.notify; split <;> rfl
@[simp] theorem State.notify_events (s : State) (r : Reply) :
    (s.notify r).events = s.events := by
  unfold State.notify; split <;> rfl

/-! `State.mirror` -/

@[simp] theorem State.mirror_cfg (s : State) (c : Byte) :
    (s.mirror c).cfg = s.cfg := by
  unfold State.mirror; split <;> rfl
@[simp] theorem State.mirror_acc (s : State) (c : Byte) :
    (s.mirror c).acc = s.acc := by
  unfold State.mirror; split <;> rfl
@[simp] theorem State.mirror_len (s : State) (c : Byte) :
    (s.mirror c).len = s.len := by
  unfold State.mirror; split <;> rfl
@[simp] theorem State.mirror_fb (s : State) (c : Byte) :
    (s.mirror c).fb = s.fb := by
  unfold State.mirror; split <;> rfl
@[simp] theorem State.mirror_echo (s : State) (c : Byte) :
    (s.mirror c).echo = s.echo := by
  unfold State.mirror; split <;> rfl
@[simp] theorem State.mirror_busy (s : State) (c : Byte) :
    (s.mirror c).busy = s.busy := by
  unfold State.mirror; split <;> rfl
@[simp] theorem State.mirror_tcnt (s : State) (c : Byte) :
    (s.mirror c).tcnt = s.tcnt := by
  unfold State.mirror; split <;> rfl
@[simp] theorem State.mirror_slots (s : State) (c : Byte) :
    (s.mirror c).slots = s.slots := by
  unfold State.mirror; split <;> rfl
@[simp] theorem State.mirror_scanEnd (s : State) (c : Byte) :
    (s.mirror c).scanEnd = s.scanEnd := by
  unfold State.mirror; split <;> rfl
@[simp] theorem State.mirror_sum (s : State) (c : Byte) :
    (s.mirror c).sum = s.sum := by
  unfold State.mirror; split <;> rfl
@[simp] theorem State.mirror_decl (s : State) (c : Byte) :
    (s.mirror c).decl = s.decl := by
  unfold State.mirror; split <;> rfl
@[simp] theorem State.mirror_starSeen (s : State) (c : Byte) :
    (s.mirror c).starSeen = s.starSeen := by
  unfold State.mirror; split <;> rfl
@[simp] theorem State.mirror_rb (s : State) (c : Byte) :
    (s.mirror c).rb = s.rb := by
  unfold State.mirror; split <;> rfl
@[simp] theorem State.mirror_rlen (s : State) (c : Byte) :
    (s.mirror c).rlen = s.rlen := by
  unfold State.mirror; split <;> rfl
@[simp] theorem State.mirror_pflag (s : State) (c : Byte) :
    (s.mirror c).pflag = s.pflag := by
  unfold State.mirror; split <;> rfl
@[simp] theorem State.mirror_status (s : State) (c : Byte) :
    (s.mirror c).status = s.status := by
  unfold State.mirror; split <;> rfl
@[simp] theorem State.mirror_phase (s : State) (c : Byte) :
    (s.mirror c).phase = s.phase := by
  unfold State.mirror; split <;> rfl
@[simp] theorem State.mirror_left (s : State) (c : Byte) :
    (s.mirror c).left = s.left := by
  unfold State.mirror; split <;> rfl
@[simp] theorem State.mirror_rx (s : State) (c : Byte) :
    (s.mirror c).rx = s.rx := by
  unfold State.mirror; split <;> rfl
@[simp] theorem State.mirror_tx (s : State) (c : Byte) :
    (s.mirror c).tx = if s.echo then s.tx ++ [c] else s.tx := by
  unfold State.mirror; split <;> rfl
@[simp] theorem State.mirror_ctl (s : State) (c : Byte) :
    (s.mirror c).ctl = s.ctl := by
  unfold State.mirror; split <;> rfl
@[simp] theorem State.mirror_answers (s : State) (c : Byte) :
    (s.mirror c).answers = s.answers := by
  unfold State.mirror; split <;> rfl
@[simp] theorem State.mirror_draws (s : State) (c : Byte) :
    (s.mirror c).draws = s.draws := by
  unfold State.mirror; split <;> rfl
@[simp] theorem State.mirror_host (s : State) (c : Byte) :
    (s.mirror c).host = s.host := by
  unfold State.mirror; split <;> rfl
@[simp] theorem State.mirror_events (s : State) (c : Byte) :
    (s.mirror c).events = s.events := by
  unfold State.mirror; split <;> rfl

end Machine
end Sys2Proof
end

