-- ==== Sys2Proof/Laws/Ops.lean ====
section
/-! SUPPORT. One lemma per shared operation: everything it can do where it answers a next state. -/

namespace Sys2Proof
namespace Machine

/-- A store that answers a next state is inside the buffer and writes that one byte. -/
theorem State.storeFb_next {s t : State} {i : Nat} {v : Byte} (h : s.storeFb i v = .next t) :
    i < s.cfg.bufLen ∧ t = { s with fb := Memory.write s.fb i v } := by
  unfold State.storeFb at h
  split at h
  · exact ⟨‹_›, (Host.Outcome.next.inj h).symm⟩
  · cases h

/-- A store inside the buffer completes. -/
theorem State.storeFb_eq {s : State} {i : Nat} (v : Byte) (h : i < s.cfg.bufLen) :
    s.storeFb i v = .next { s with fb := Memory.write s.fb i v } := if_pos h

/-- A transaction that answers a next state returned, or it reset the system. -/
theorem State.transact_next {s t : State} {op : CtlOp} {k : Reply → State → Result}
    (h : s.transact op k = .next t) :
    (∃ r, s.answerTo op = .reply r ∧ k r (s.called op) = .next t) ∨
      (∃ lost, s.answerTo op = .resets lost ∧ t = (s.called op).systemReset lost) := by
  unfold State.transact at h
  split at h
  · exact .inl ⟨_, ‹_›, h⟩
  · cases h
  · exact .inr ⟨_, ‹_›, (Host.Outcome.next.inj h).symm⟩
  · cases h

/-- A transaction that returns goes on with its results. -/
theorem State.transact_reply {s : State} {op : CtlOp} {r : Reply} (k : Reply → State → Result)
    (h : s.answerTo op = .reply r) : s.transact op k = k r (s.called op) := by
  simp [State.transact, h]

/-- A transaction that resets the system goes on with nothing. -/
theorem State.transact_resets {s : State} {op : CtlOp} {lost : List Bool}
    (k : Reply → State → Result) (h : s.answerTo op = .resets lost) :
    s.transact op k = .next ((s.called op).systemReset lost) := by
  simp [State.transact, h]

/-- With no answer given, a transaction returns, or it is `C_RESET` and resets the system; which of
the two is free (R183, D21). -/
theorem State.answerTo_free {s : State} (op : CtlOp) (h : s.answers = []) :
    s.answerTo op = .reply (freeReply s.cfg s.draws) ∨
      op = .reset ∧ s.answerTo op = .resets (Config.freeLost s.draws) := by
  simp only [State.answerTo, h]
  split
  · exact .inr ⟨And.left ‹_›, rfl⟩
  · exact .inl rfl

/-- Only `C_RESET` resets the system. -/
theorem State.answerTo_resets {s : State} {op : CtlOp} {lost : List Bool}
    (h : s.answerTo op = .resets lost) : op = .reset := by
  unfold State.answerTo at h
  split at h
  · split at h
    · exact And.left ‹_›
    · cases h
  · split at h <;> cases h
  · cases h
  · split at h
    · assumption
    · cases h

/-- A handled command failed its arity, or its handler ran. -/
theorem State.handle_next {s t : State} {arity : Arity} {reads : Nat} {f : State → Result}
    (h : s.handle arity reads f = .next t) :
    (arity.meets s.tcnt = false ∧ t = s.concluded 1#8 .arity) ∨
      (arity.meets s.tcnt = true ∧ f s = .next t) := by
  unfold State.handle at h
  split at h
  · split at h
    · exact .inr ⟨‹_›, h⟩
    · cases h
  · rename_i ha
    exact .inl ⟨by simpa using ha, (Host.Outcome.next.inj h).symm⟩

/-- A handler runs where the arity holds and the slots it reads exist. -/
theorem State.handle_eq {s : State} {arity : Arity} {reads : Nat} (f : State → Result)
    (ha : arity.meets s.tcnt = true) (hr : ∀ j < reads, s.slotInRange (j + 1) = true) :
    s.handle arity reads f = f s := by
  unfold State.handle
  rw [if_pos ha, if_pos]
  simpa using hr

/-- How a command can end when it answers a next state: R165's ways, and the failures before them. -/
inductive CommandEnd (i : Instr) (s : State) : State → Prop where
  /-- R164: the token count fails the arity. -/
  | arity (h : i.arity.meets s.tcnt = false) : CommandEnd i s (s.concluded 1#8 .arity)
  /-- R275: `SL` rejects its letter. -/
  | arg (h : i = .sl) : CommandEnd i s (s.concluded 1#8 .arg)
  /-- R200: `SE` writes `ECHO`. -/
  | echo (h : i = .se) (b : Bool) :
      CommandEnd i s (({ s with echo := b } : State).finished 0#8)
  /-- R165: the one transaction returns. -/
  | returned (h : i ≠ .se) (op : CtlOp) (r : Reply) (ha : s.answerTo op = .reply r) :
      CommandEnd i s ((s.called op).finished r.status)
  /-- R169: a query's transaction returns with status 0 and its payload is set. -/
  | payload (h : i ∈ [Instr.gc, .ge, .gs, .gt, .gv]) (op : CtlOp) (r : Reply)
      (ha : s.answerTo op = .reply r) (h0 : r.status = 0#8) (p : List Byte) :
      CommandEnd i s (((s.called op).setPayload p).finished 0#8)
  /-- R183: `FR`'s transaction resets the system. -/
  | reset (h : i = .fr) (lost : List Bool) (ha : s.answerTo .reset = .resets lost) :
      CommandEnd i s ((s.called .reset).systemReset lost)

/-- The transaction of a status-only handler ends the command. -/
theorem commandEnd_of_command {i : Instr} {s t : State} {op : CtlOp} (hi : i ≠ .se)
    (hr : op = .reset → i = .fr) (h : s.command op = .next t) : CommandEnd i s t := by
  rcases State.transact_next h with ⟨r, ha, h⟩ | ⟨lost, ha, rfl⟩
  · cases h
    exact .returned hi op r ha
  · obtain rfl := State.answerTo_resets ha
    exact .reset (hr rfl) lost ha

/-- The transaction of a query ends the command. -/
theorem commandEnd_of_query {i : Instr} {s t : State} {op : CtlOp} {p : Reply → List Byte}
    (hi : i ∈ [Instr.gc, .ge, .gs, .gt, .gv]) (hop : op ≠ .reset) (h : s.query op p = .next t) :
    CommandEnd i s t := by
  rcases State.transact_next h with ⟨r, ha, h⟩ | ⟨lost, ha, _⟩
  · cases h
    by_cases h0 : r.status = 0#8
    · rw [if_pos h0, h0]
      exact .payload hi op r ha h0 _
    · rw [if_neg h0]
      exact .returned (by rintro rfl; simp at hi) op r ha
  · exact absurd (State.answerTo_resets ha) hop

/-- Everything a command can do, said once: each meaning ends in one of `CommandEnd`'s ways. -/
theorem exec_command_next {i : Instr} {s t : State} (hi : i.isCommand = true)
    (h : exec i s = .next t) : CommandEnd i s t := by
  cases i
  case rxSoc | rxEoc | rxData | rxIdle => cases hi
  all_goals
    simp only [exec, execFb, execFd, execFe, execFp, execFr, execFs, execS1, execSc, execSd,
      execSe, execSg, execSl, execSr, execSs, execSt, execSv, execGc, execGe, execGs, execGt, execGv] at h
    rcases State.handle_next h with ⟨ha, rfl⟩ | ⟨_, h⟩
    · exact .arity ha
  case gc | ge | gs | gt | gv => exact commandEnd_of_query (by decide) (by decide) h
  case se => cases h; exact .echo rfl _
  case sl | st | fp =>
    split_ifs at h
    all_goals first
      | (refine commandEnd_of_command (by decide) ?_ h; intro e; cases e)
      | (cases h; exact .arg rfl)
  case fr => exact commandEnd_of_command (by decide) (fun _ => rfl) h
  all_goals
    refine commandEnd_of_command (by decide) ?_ h
    intro e
    cases e

end Machine
end Sys2Proof
end

