-- ==== Sys2Proof/Laws/PerInstr.lean ====
section
/-! SUPPORT. Laws stated per instruction: no command letter is a sentinel byte, in any build (R71, R86). -/

namespace Sys2Proof

/-- R71: in a well-formed build a byte that no sentinel may be is none. -/
theorem Params.not_sentinel_of_not_allowed (P : Params) (hP : P.ok = true) (c : Byte)
    (hc : sentinelAllowed c = false) : P.isSentinel c = false := by
  have hs : sentinelAllowed P.soc = true ∧ sentinelAllowed P.eoc = true := by
    simp only [Params.ok, Bool.and_eq_true] at hP
    exact ⟨hP.1.1.1.1.1.1.2, hP.1.1.1.1.1.2⟩
  have h1 : c ≠ P.soc := fun h => by rw [h, hs.1] at hc; cases hc
  have h2 : c ≠ P.eoc := fun h => by rw [h, hs.2] at hc; cases hc
  simp [Params.isSentinel, h1, h2]

/-- A two-byte command word whose letters no sentinel may be holds no sentinel. -/
theorem Params.letters_sentinel_free (P : Params) (hP : P.ok = true) (a b : Byte)
    (ha : sentinelAllowed a = false) (hb : sentinelAllowed b = false) :
    P.holdsSentinel [a, b] = false := by
  simp [Params.holdsSentinel, P.not_sentinel_of_not_allowed hP a ha,
    P.not_sentinel_of_not_allowed hP b hb]

namespace Laws
namespace SentinelFree

/-- R71, R86: the two letters that select a command are no sentinel byte of a well-formed build, so a
frame can carry every command. -/
def Statement (i : Instr) : Prop :=
  ∀ P : Params, P.ok = true → i.isCommand = true → P.holdsSentinel (encode P i) = false

theorem fb : Statement .fb := fun P hP _ => P.letters_sentinel_free hP _ _ (by decide) (by decide)
theorem fd : Statement .fd := fun P hP _ => P.letters_sentinel_free hP _ _ (by decide) (by decide)
theorem fe : Statement .fe := fun P hP _ => P.letters_sentinel_free hP _ _ (by decide) (by decide)
theorem fp : Statement .fp := fun P hP _ => P.letters_sentinel_free hP _ _ (by decide) (by decide)
theorem fr : Statement .fr := fun P hP _ => P.letters_sentinel_free hP _ _ (by decide) (by decide)
theorem fs : Statement .fs := fun P hP _ => P.letters_sentinel_free hP _ _ (by decide) (by decide)
theorem s1 : Statement .s1 := fun P hP _ => P.letters_sentinel_free hP _ _ (by decide) (by decide)
theorem sc : Statement .sc := fun P hP _ => P.letters_sentinel_free hP _ _ (by decide) (by decide)
theorem sd : Statement .sd := fun P hP _ => P.letters_sentinel_free hP _ _ (by decide) (by decide)
theorem se : Statement .se := fun P hP _ => P.letters_sentinel_free hP _ _ (by decide) (by decide)
theorem sg : Statement .sg := fun P hP _ => P.letters_sentinel_free hP _ _ (by decide) (by decide)
theorem sl : Statement .sl := fun P hP _ => P.letters_sentinel_free hP _ _ (by decide) (by decide)
theorem sr : Statement .sr := fun P hP _ => P.letters_sentinel_free hP _ _ (by decide) (by decide)
theorem ss : Statement .ss := fun P hP _ => P.letters_sentinel_free hP _ _ (by decide) (by decide)
theorem st : Statement .st := fun P hP _ => P.letters_sentinel_free hP _ _ (by decide) (by decide)
theorem sv : Statement .sv := fun P hP _ => P.letters_sentinel_free hP _ _ (by decide) (by decide)
theorem gc : Statement .gc := fun P hP _ => P.letters_sentinel_free hP _ _ (by decide) (by decide)
theorem ge : Statement .ge := fun P hP _ => P.letters_sentinel_free hP _ _ (by decide) (by decide)
theorem gs : Statement .gs := fun P hP _ => P.letters_sentinel_free hP _ _ (by decide) (by decide)
theorem gt : Statement .gt := fun P hP _ => P.letters_sentinel_free hP _ _ (by decide) (by decide)
theorem gv : Statement .gv := fun P hP _ => P.letters_sentinel_free hP _ _ (by decide) (by decide)
theorem rxSoc : Statement .rxSoc := fun _ _ h => by cases h
theorem rxEoc : Statement .rxEoc := fun _ _ h => by cases h
theorem rxData (c : Byte) : Statement (.rxData c) := fun _ _ h => by cases h
theorem rxIdle (c : Byte) : Statement (.rxIdle c) := fun _ _ h => by cases h

end SentinelFree
end Laws
end Sys2Proof
end

