-- ==== Sys2Proof/Laws/Scan.lean ====
section
/-! SUPPORT. What the scan of R133 does, said once: where it stops, what it sums, and the token slots. -/

namespace Sys2Proof
namespace Machine

/-! ### Slices of the frame buffer -/

theorem State.slice_self (s : State) (a : Nat) : s.slice a a = [] := by simp [State.slice]

theorem State.slice_cons (s : State) {a b : Nat} (h : a < b) :
    s.slice a b = s.fbByte a :: s.slice (a + 1) b := by
  obtain ⟨d, rfl⟩ : ∃ d, b = a + (d + 1) := ⟨b - a - 1, by omega⟩
  have h1 : a + (d + 1) - a = d + 1 := by omega
  have h2 : a + (d + 1) - (a + 1) = d := by omega
  simp only [State.slice, h1, h2, List.range_succ_eq_map, List.map_cons, List.map_map, Nat.add_zero]
  refine congrArg _ (List.map_congr_left fun j _ => ?_)
  simp only [Function.comp, Nat.succ_eq_add_one]
  congr 1
  omega

theorem State.slice_append (s : State) {a b c : Nat} (h : a ≤ b) (h' : b ≤ c) :
    s.slice a b ++ s.slice b c = s.slice a c := by
  obtain ⟨d, rfl⟩ : ∃ d, b = a + d := ⟨b - a, by omega⟩
  clear h
  induction d generalizing a with
  | zero => simp [State.slice_self]
  | succ d ih =>
    rw [s.slice_cons (by omega : a < a + (d + 1)), s.slice_cons (by omega : a < c), List.cons_append]
    have := @ih (a + 1)
    rw [show a + 1 + d = a + (d + 1) by omega] at this
    rw [this h']

theorem State.slice_snoc (s : State) {a b : Nat} (h : a ≤ b) :
    s.slice a (b + 1) = s.slice a b ++ [s.fbByte b] := by
  rw [← s.slice_append h (Nat.le_succ b), s.slice_cons (Nat.lt_succ_self b), State.slice_self]

theorem State.mem_slice (s : State) {a b : Nat} {c : Byte} :
    c ∈ s.slice a b ↔ ∃ j, a ≤ j ∧ j < b ∧ s.fbByte j = c := by
  simp only [State.slice, List.mem_map, List.mem_range]
  constructor
  · rintro ⟨j, hj, rfl⟩
    exact ⟨a + j, by omega, by omega, rfl⟩
  · rintro ⟨j, h1, h2, rfl⟩
    exact ⟨j - a, by omega, by rw [Nat.add_sub_cancel' h1]⟩

/-- A slice depends only on the bytes it covers. -/
theorem State.slice_congr {s t : State} {a b : Nat}
    (h : ∀ j, a ≤ j → j < b → s.fbByte j = t.fbByte j) : s.slice a b = t.slice a b :=
  List.map_congr_left fun j hj => h _ (by omega) (by have := List.mem_range.mp hj; omega)

/-- The first byte of a token is the head of its text, `NUL` for an empty token (R199). -/
theorem State.firstByte_eq (s : State) (k : Nat) : s.firstByte k = (s.arg k).headD nul := by
  unfold State.firstByte State.arg
  split
  · rw [s.slice_cons ‹_›, List.headD_cons]
  · simp [State.slice, Nat.sub_eq_zero_of_le (Nat.le_of_not_lt ‹_›)]

/-! ### Token slots -/

@[simp] theorem length_setTs (n k i : Nat) (l : List Slot) : (setTs n k i l).length = l.length := by
  unfold setTs; split <;> simp

@[simp] theorem length_setTe (n k i : Nat) (l : List Slot) : (setTe n k i l).length = l.length := by
  unfold setTe; split <;> simp

/-- What a written slot file holds: the written field of slot `k`, all else as before. -/
theorem getD_setTs (n k i j : Nat) (l : List Slot) (hn : l.length = n) :
    (setTs n k i l).getD j ⟨0, 0⟩ =
      if j = k ∧ k < n then { l.getD j ⟨0, 0⟩ with ts := i } else l.getD j ⟨0, 0⟩ := by
  unfold setTs
  by_cases hk : k < n
  · simp only [if_pos hk, List.getD_eq_getElem?_getD, List.getElem?_modify]
    by_cases hj : j = k
    · subst hj
      rw [if_pos ⟨rfl, hk⟩]
      simp [List.getElem?_eq_getElem (hn ▸ hk)]
    · rw [if_neg (fun h => hj h.1)]
      simp [Ne.symm hj]
  · simp only [if_neg hk]
    rw [if_neg (fun h => hk h.2)]

theorem getD_setTe (n k i j : Nat) (l : List Slot) (hn : l.length = n) :
    (setTe n k i l).getD j ⟨0, 0⟩ =
      if j = k ∧ k < n then { l.getD j ⟨0, 0⟩ with te := i } else l.getD j ⟨0, 0⟩ := by
  unfold setTe
  by_cases hk : k < n
  · simp only [if_pos hk, List.getD_eq_getElem?_getD, List.getElem?_modify]
    by_cases hj : j = k
    · subst hj
      rw [if_pos ⟨rfl, hk⟩]
      simp [List.getElem?_eq_getElem (hn ▸ hk)]
    · rw [if_neg (fun h => hj h.1)]
      simp [Ne.symm hj]
  · simp only [if_neg hk]
    rw [if_neg (fun h => hk h.2)]

/-- A bound that every slot keeps is kept by a write within it. -/
theorem forall_mem_setTs {n k i b : Nat} {l : List Slot} (hi : i ≤ b)
    (h : ∀ x ∈ l, x.ts ≤ b ∧ x.te ≤ b) : ∀ x ∈ setTs n k i l, x.ts ≤ b ∧ x.te ≤ b := by
  unfold setTs
  split
  · intro x hx
    obtain ⟨j, hj, rfl⟩ := List.mem_iff_getElem.mp hx
    rw [List.getElem_modify]
    have := h _ (List.getElem_mem (by simpa using hj : j < l.length))
    split
    · exact ⟨hi, this.2⟩
    · exact this
  · exact h

theorem forall_mem_setTe {n k i b : Nat} {l : List Slot} (hi : i ≤ b)
    (h : ∀ x ∈ l, x.ts ≤ b ∧ x.te ≤ b) : ∀ x ∈ setTe n k i l, x.ts ≤ b ∧ x.te ≤ b := by
  unfold setTe
  split
  · intro x hx
    obtain ⟨j, hj, rfl⟩ := List.mem_iff_getElem.mp hx
    rw [List.getElem_modify]
    have := h _ (List.getElem_mem (by simpa using hj : j < l.length))
    split
    · exact ⟨this.1, hi⟩
    · exact this
  · exact h

/-! ### The scan loop -/

/-- One round that meets a space (R133). -/
def State.scanSpace (s : State) (t : Scan) : Scan :=
  { t with
    sum := t.sum + sp
    slots := setTs s.cfg.maxTokens t.tcnt (t.i + 1) (setTe s.cfg.maxTokens (t.tcnt - 1) t.i t.slots)
    tcnt := t.tcnt + 1
    i := t.i + 1 }

/-- One round that meets any other token byte (R133). -/
def State.scanByte (s : State) (t : Scan) : Scan :=
  { t with sum := t.sum + s.fbByte t.i, i := t.i + 1 }

/-- The scan's end at an asterisk (R133, R134). -/
def State.scanStar (s : State) (t : Scan) : Scan :=
  { t with starSeen := true, decl := htou (s.byteAt (t.i + 1)) (s.byteAt (t.i + 2)) }

/-- How the scan runs from `t` to `u`: over spaces and token bytes until the frame's end, a `NUL` or
an asterisk. Facts about the scan are inductions over this. -/
inductive ScanRun (s : State) : Scan → Scan → Prop where
  | stop {t : Scan} (h : t.i = s.len ∨ t.i < s.len ∧ s.fbByte t.i = nul) : ScanRun s t t
  | space {t u : Scan} (hi : t.i < s.len) (h : s.fbByte t.i = sp)
      (hu : ScanRun s (s.scanSpace t) u) : ScanRun s t u
  | trailer {t : Scan} (hi : t.i < s.len) (h : s.fbByte t.i = asterisk) : ScanRun s t (s.scanStar t)
  | byte {t u : Scan} (hi : t.i < s.len)
      (h : s.fbByte t.i ≠ nul ∧ s.fbByte t.i ≠ sp ∧ s.fbByte t.i ≠ asterisk)
      (hu : ScanRun s (s.scanByte t) u) : ScanRun s t u

/-- The loop with enough rounds is such a run. -/
theorem State.scanLoop_run (s : State) (fuel : Nat) (t : Scan) (hi : t.i ≤ s.len)
    (hf : s.len ≤ t.i + fuel) : ScanRun s t (s.scanLoop fuel t) := by
  induction fuel generalizing t with
  | zero => exact .stop (.inl (by omega))
  | succ fuel ih =>
    simp only [State.scanLoop]
    by_cases hlt : t.i < s.len
    · by_cases h0 : s.fbByte t.i = nul
      · rw [if_neg (fun h => h.2 h0)]
        exact .stop (.inr ⟨hlt, h0⟩)
      · rw [if_pos ⟨hlt, h0⟩]
        split_ifs with hsp hst
        · exact .space hlt hsp (ih (s.scanSpace t) hlt (by simp [State.scanSpace]; omega))
        · exact .trailer hlt hst
        · exact .byte hlt ⟨h0, hsp, hst⟩ (ih (s.scanByte t) hlt (by simp [State.scanByte]; omega))
    · rw [if_neg (fun h => hlt h.1)]
      exact .stop (.inl (by omega))

/-- The scan of a frame with a body is a run from its start. -/
theorem State.scan_run (s : State) (h : 2 ≤ s.len) : ScanRun s s.scanStart s.scan := by
  simp only [State.scan, if_pos h]
  exact s.scanLoop_run _ _ h (by simp only [State.scanStart]; omega)

/-- Where a run stops, and what it leaves in the sum, the count and the declared checksum. -/
theorem ScanRun.spec {s : State} {t u : Scan} (h : ScanRun s t u) :
    t.i ≤ u.i ∧ u.i ≤ s.len ∧
    (∀ j, t.i ≤ j → j < u.i → s.fbByte j ≠ nul ∧ s.fbByte j ≠ asterisk) ∧
    u.sum = (s.slice t.i u.i).foldl (· + ·) t.sum ∧
    u.tcnt = t.tcnt + (s.slice t.i u.i).count sp ∧
    ((u.i < s.len ∧ s.fbByte u.i = asterisk ∧ u.starSeen = true ∧
        u.decl = htou (s.byteAt (u.i + 1)) (s.byteAt (u.i + 2))) ∨
      ((u.i = s.len ∨ u.i < s.len ∧ s.fbByte u.i = nul) ∧
        u.starSeen = t.starSeen ∧ u.decl = t.decl)) := by
  induction h with
  | stop h => refine ⟨le_rfl, ?_, fun j _ _ => by omega, by simp [State.slice_self], by simp [State.slice_self], .inr ⟨h, rfl, rfl⟩⟩; omega
  | trailer hi h =>
    exact ⟨le_rfl, hi.le, fun j _ _ => absurd ‹_› (by simp only [State.scanStar]; omega),
      by simp [State.slice_self, State.scanStar], by simp [State.slice_self, State.scanStar],
      .inl ⟨hi, h, rfl, rfl⟩⟩
  | @space t u hi h _ ih =>
    obtain ⟨h1, h2, h3, h4, h5, h6⟩ := ih
    simp only [State.scanSpace] at h1 h3 h4 h5 h6
    refine ⟨by omega, h2, fun j ha hb => ?_, ?_, ?_, h6⟩
    · rcases Nat.eq_or_lt_of_le ha with rfl | ha
      · rw [h]; decide
      · exact h3 j ha hb
    · rw [h4, s.slice_cons (by omega : t.i < u.i), h, List.foldl_cons]
    · rw [h5, s.slice_cons (by omega : t.i < u.i), h, List.count_cons_self]; omega
  | @byte t u hi h _ ih =>
    obtain ⟨h1, h2, h3, h4, h5, h6⟩ := ih
    simp only [State.scanByte] at h1 h3 h4 h5 h6
    refine ⟨by omega, h2, fun j ha hb => ?_, ?_, ?_, h6⟩
    · rcases Nat.eq_or_lt_of_le ha with rfl | ha
      · exact ⟨h.1, h.2.2⟩
      · exact h3 j ha hb
    · rw [h4, s.slice_cons (by omega : t.i < u.i), List.foldl_cons]
    · rw [h5, s.slice_cons (by omega : t.i < u.i), List.count_cons_of_ne h.2.1]

/-- What the token slots hold while the scan is at index `i` (R131, R133): the closed tokens one after
the other, each ended by a space, and the open one begun. -/
structure ScanSlots (s : State) (t : Scan) : Prop where
  count : 1 ≤ t.tcnt
  size : t.slots.length = s.cfg.maxTokens
  first : 0 < s.cfg.maxTokens → (t.slots.getD 0 ⟨0, 0⟩).ts = 1
  opened : t.tcnt - 1 < s.cfg.maxTokens →
    1 ≤ (t.slots.getD (t.tcnt - 1) ⟨0, 0⟩).ts ∧ (t.slots.getD (t.tcnt - 1) ⟨0, 0⟩).ts ≤ t.i ∧
    ∀ j, 2 ≤ j → (t.slots.getD (t.tcnt - 1) ⟨0, 0⟩).ts ≤ j → j < t.i → s.fbByte j ≠ sp
  closed : ∀ k, k + 1 < t.tcnt → k < s.cfg.maxTokens →
    1 ≤ (t.slots.getD k ⟨0, 0⟩).ts ∧ (t.slots.getD k ⟨0, 0⟩).ts ≤ (t.slots.getD k ⟨0, 0⟩).te ∧
    (t.slots.getD k ⟨0, 0⟩).te < t.i ∧ s.fbByte (t.slots.getD k ⟨0, 0⟩).te = sp ∧
    (k + 1 < s.cfg.maxTokens →
      (t.slots.getD (k + 1) ⟨0, 0⟩).ts = (t.slots.getD k ⟨0, 0⟩).te + 1) ∧
    ∀ j, 2 ≤ j → (t.slots.getD k ⟨0, 0⟩).ts ≤ j → j < (t.slots.getD k ⟨0, 0⟩).te → s.fbByte j ≠ sp

theorem State.scanStart_slots (s : State) (h : s.slots.length = s.cfg.maxTokens) :
    ScanSlots s s.scanStart := by
  refine ⟨le_rfl, by simp [State.scanStart, h], fun h0 => ?_, fun h0 => ?_, fun k hk => ?_⟩
  · simp only [State.scanStart]
    rw [getD_setTs _ _ _ _ _ h, if_pos ⟨rfl, h0⟩]
  · simp only [State.scanStart] at h0 ⊢
    rw [getD_setTs _ _ _ _ _ h, if_pos ⟨rfl, h0⟩]
    exact ⟨le_rfl, (by decide : 1 ≤ 2), fun j h2 _ h3 => by omega⟩
  · simp only [State.scanStart] at hk; omega

theorem ScanRun.slots {s : State} {t u : Scan} (h : ScanRun s t u) (ht : ScanSlots s t) :
    ScanSlots s u := by
  induction h with
  | stop _ => exact ht
  | trailer _ _ => exact ⟨ht.count, ht.size, ht.first, ht.opened, ht.closed⟩
  | @byte t u hi h _ ih =>
    refine ih ⟨ht.count, ht.size, ht.first, fun h0 => ?_, fun k hk hm => ?_⟩
    · have := ht.opened h0
      refine ⟨this.1, by simp only [State.scanByte]; omega, fun j h2 hj hlt => ?_⟩
      simp only [State.scanByte] at hj hlt
      rcases Nat.lt_succ_iff_lt_or_eq.mp hlt with hlt | rfl
      · exact this.2.2 j h2 hj hlt
      · exact h.2.1
    · have := ht.closed k hk hm
      exact ⟨this.1, this.2.1, by simp only [State.scanByte]; omega, this.2.2.2⟩
  | @space t u hi h _ ih =>
    have hc := ht.count
    have hsz : (setTe s.cfg.maxTokens (t.tcnt - 1) t.i t.slots).length = s.cfg.maxTokens := by
      simp [ht.size]
    have get : ∀ j, (s.scanSpace t).slots.getD j ⟨0, 0⟩ =
        if j = t.tcnt ∧ t.tcnt < s.cfg.maxTokens then
          { (t.slots.getD j ⟨0, 0⟩) with ts := t.i + 1 }
        else if j = t.tcnt - 1 ∧ t.tcnt - 1 < s.cfg.maxTokens then
          { (t.slots.getD j ⟨0, 0⟩) with te := t.i }
        else t.slots.getD j ⟨0, 0⟩ := fun j => by
      simp only [State.scanSpace, getD_setTs _ _ _ _ _ hsz, getD_setTe _ _ _ _ _ ht.size]
      by_cases h1 : j = t.tcnt ∧ t.tcnt < s.cfg.maxTokens
      · rw [if_pos h1, if_pos h1, if_neg (by omega)]
      · rw [if_neg h1, if_neg h1]
    refine ih ⟨by simp only [State.scanSpace]; omega, by simp [State.scanSpace, ht.size],
      fun h0 => ?_, fun h0 => ?_, fun k hk hm => ?_⟩
    · rw [get, if_neg (by omega)]
      split
      · exact ht.first h0
      · exact ht.first h0
    · simp only [show (s.scanSpace t).tcnt - 1 = t.tcnt by simp [State.scanSpace]] at h0 ⊢
      rw [get, if_pos ⟨rfl, h0⟩]
      exact ⟨Nat.le_add_left 1 _, Nat.le_refl _, fun j _ hj hlt => absurd hlt (Nat.not_lt.mpr hj)⟩
    · have hk : k + 1 < t.tcnt + 1 := hk
      have hi' : (s.scanSpace t).i = t.i + 1 := rfl
      rw [get, get, hi', if_neg (by omega)]
      by_cases hlast : k = t.tcnt - 1
      · have ho := ht.opened (by omega)
        rw [if_pos ⟨hlast, by omega⟩]
        subst hlast
        refine ⟨ho.1, ho.2.1, by simp, h, fun hm1 => ?_, ho.2.2⟩
        rw [if_pos ⟨by omega, by omega⟩]
      · have hcl := ht.closed k (by omega) hm
        rw [if_neg (fun hh => hlast hh.1)]
        refine ⟨hcl.1, hcl.2.1, by omega, hcl.2.2.2.1, fun hm1 => ?_, hcl.2.2.2.2.2⟩
        rw [if_neg (by omega)]
        split
        · exact hcl.2.2.2.2.1 hm1
        · exact hcl.2.2.2.2.1 hm1

theorem ScanRun.bound {s : State} {t u : Scan} {b : Nat} (h : ScanRun s t u) (hb : s.len ≤ b)
    (ht : ∀ x ∈ t.slots, x.ts ≤ b ∧ x.te ≤ b) : ∀ x ∈ u.slots, x.ts ≤ b ∧ x.te ≤ b := by
  induction h with
  | stop _ => exact ht
  | trailer _ _ => exact ht
  | byte _ _ _ ih => exact ih ht
  | space hi _ _ ih =>
    exact ih (forall_mem_setTs (by omega) (forall_mem_setTe (by omega) ht))

/-! ### The whole of `Tokenize()` -/

/-- With a body, `Tokenize()` leaves what the scan left. -/
theorem State.tokenize_scan (s : State) (h : 2 ≤ s.len) :
    s.tokenize.scanEnd = s.scan.i ∧ s.tokenize.sum = s.scan.sum ∧ s.tokenize.decl = s.scan.decl ∧
      s.tokenize.starSeen = s.scan.starSeen ∧ s.tokenize.tcnt = s.scan.tcnt := by
  simp [State.tokenize, State.scanStop, h]

/-- Without a body, `Tokenize()` leaves the scan's start (R142). -/
theorem State.tokenize_short (s : State) (h : ¬ 2 ≤ s.len) :
    s.tokenize.scanEnd = 1 ∧ s.tokenize.sum = s.cfg.soc + s.byteAt 1 ∧ s.tokenize.decl = 0#8 ∧
      s.tokenize.starSeen = false ∧ s.tokenize.tcnt = 1 ∧
      s.tokenize.slots = setTe s.cfg.maxTokens 0 1 (setTs s.cfg.maxTokens 0 1 s.slots) := by
  simp [State.tokenize, State.scanStop, State.scan, State.scanStart, h]

/-- The token slots `Tokenize()` leaves: the stored tokens lie one after the other inside the scanned
part of the frame, each but the last ended by a space, and none with a space past its index 1. -/
theorem State.tokenize_tokens (s : State) (h : 2 ≤ s.len) (hs : s.slots.length = s.cfg.maxTokens)
    (k : Nat) (hk : k < s.tokenize.tcnt) (hm : k < s.cfg.maxTokens) :
    1 ≤ (s.tokenize.slot k).ts ∧ (s.tokenize.slot k).ts ≤ (s.tokenize.slot k).te ∧
    (k = 0 → (s.tokenize.slot k).ts = 1) ∧ (s.tokenize.slot k).te ≤ s.tokenize.scanEnd ∧
    (k + 1 = s.tokenize.tcnt → (s.tokenize.slot k).te = s.tokenize.scanEnd) ∧
    (k + 1 < s.tokenize.tcnt →
      s.fbByte (s.tokenize.slot k).te = sp ∧ (s.tokenize.slot k).te < s.tokenize.scanEnd ∧
      (k + 1 < s.cfg.maxTokens →
        (s.tokenize.slot (k + 1)).ts = (s.tokenize.slot k).te + 1)) ∧
    ∀ j, 2 ≤ j → (s.tokenize.slot k).ts ≤ j → j < (s.tokenize.slot k).te → s.fbByte j ≠ sp := by
  obtain ⟨e1, _, _, _, e5⟩ := s.tokenize_scan h
  have hS := (s.scan_run h).slots (s.scanStart_slots hs)
  have hc := hS.count
  have get : ∀ j, s.tokenize.slot j =
      if j = s.scan.tcnt - 1 ∧ s.scan.tcnt - 1 < s.cfg.maxTokens then
        { s.scan.slots.getD j ⟨0, 0⟩ with te := s.scan.i }
      else s.scan.slots.getD j ⟨0, 0⟩ := fun j => by
    simp only [State.slot, State.tokenize, getD_setTe _ _ _ _ _ hS.size, State.scanStop, if_pos h]
  rw [e5] at hk
  rw [e1, e5, get, get]
  have hf : (s.scan.slots.getD 0 ⟨0, 0⟩).ts = 1 := hS.first (by omega)
  by_cases hl : k = s.scan.tcnt - 1
  · have ho := hS.opened (by omega)
    rw [if_pos ⟨hl, by omega⟩]
    subst hl
    exact ⟨ho.1, ho.2.1, fun e => by rw [e]; exact hf, le_rfl, fun _ => rfl,
      fun e => absurd e (by omega), ho.2.2⟩
  · rw [if_neg (fun e => hl e.1)]
    have hcl := hS.closed k (by omega) hm
    refine ⟨hcl.1, hcl.2.1, fun e => by rw [e]; exact hf, by omega, fun e => absurd e (by omega),
      fun e => ⟨hcl.2.2.2.1, hcl.2.2.1, fun e' => ?_⟩, hcl.2.2.2.2.2⟩
    rw [← hcl.2.2.2.2.1 e']
    split <;> rfl

/-- A run writes slots, it adds none. -/
theorem ScanRun.length_slots {s : State} {t u : Scan} (h : ScanRun s t u) :
    u.slots.length = t.slots.length := by
  induction h with
  | stop _ => rfl
  | trailer _ _ => rfl
  | byte _ _ _ ih => exact ih
  | space _ _ _ ih => rw [ih]; simp [State.scanSpace]

/-- `Tokenize()` keeps the number of slots (R27). -/
theorem State.length_tokenize_slots (s : State) : s.tokenize.slots.length = s.slots.length := by
  by_cases h : 2 ≤ s.len
  · simp [(s.scan_run h).length_slots, State.scanStart]
  · rw [(s.tokenize_short h).2.2.2.2.2, length_setTe, length_setTs]

/-- `Tokenize()` keeps the slots inside the frame buffer (R27). -/
theorem State.tokenize_slots_bound (s : State) (hl : s.len ≤ s.cfg.bufLen) (h1 : 1 ≤ s.cfg.bufLen)
    (h : ∀ x ∈ s.slots, x.ts ≤ s.cfg.bufLen ∧ x.te ≤ s.cfg.bufLen) :
    ∀ x ∈ s.tokenize.slots, x.ts ≤ s.cfg.bufLen ∧ x.te ≤ s.cfg.bufLen := by
  by_cases h2 : 2 ≤ s.len
  · have hi := (s.scan_run h2).spec.2.1
    refine forall_mem_setTe ?_ ((s.scan_run h2).bound hl (forall_mem_setTs h1 h))
    simp only [State.scanStop, if_pos h2]
    omega
  · rw [(s.tokenize_short h2).2.2.2.2.2]
    exact forall_mem_setTe h1 (forall_mem_setTs h1 h)

end Machine
end Sys2Proof
end

