-- ==== Sys2Proof/Laws/Step.lean ====
section
/-! SUPPORT. One lemma per step function: everything a byte class, the engine and the machine can do
where they answer a next state. -/

namespace Sys2Proof
namespace Machine

/-! ### Decoding answers -/

/-- The category byte is the command word's high half (R74). -/
theorem commandWord_high (a b : Byte) : (commandWord a b).extractLsb' 8 8 = a := by
  refine BitVec.eq_of_getLsbD_eq fun i hi => ?_
  have h := BitVec.getLsbD_append (x := a) (y := b) (i := 8 + i)
  rw [BitVec.getLsbD_extractLsb', show (commandWord a b).getLsbD (8 + i) = _ from h]
  simp [hi]

/-- The sub-letter byte is the command word's low half (R74). -/
theorem commandWord_low (a b : Byte) : (commandWord a b).extractLsb' 0 8 = b := by
  refine BitVec.eq_of_getLsbD_eq fun i hi => ?_
  have h := BitVec.getLsbD_append (x := a) (y := b) (i := 0 + i)
  rw [BitVec.getLsbD_extractLsb', show (commandWord a b).getLsbD (0 + i) = _ from h]
  simp [hi]

/-- A row of the tables of R82 holds a command, with the letters its encoding has. -/
theorem decodeLetters_instr {P : Params} {cat sub : Byte} {i : Instr}
    (h : decodeLetters P cat sub = .instr i) :
    i.isCommand = true ∧ P.present.contains i = true ∧ encode P i = [cat, sub] := by
  unfold decodeLetters at h
  split at h
  · cases h
  rename_i rows hrows
  split at h
  · cases h
  rename_i r hr
  split at h
  · rename_i hp
    cases h
    have hm := List.mem_of_find?_eq_some hr
    have hs : r.sub = sub := by simpa using List.find?_some hr
    subst hs
    unfold categoryRows at hrows
    refine ⟨?_, hp, ?_⟩ <;>
    · split_ifs at hrows with h1 h2 h3
      all_goals
        cases hrows
        subst cat
        simp only [functionRows, setRows, getRows, List.cons_append, List.nil_append, List.mem_cons,
          List.not_mem_nil, or_false] at hm
        rcases hm with rfl | rfl | rfl | rfl | rfl | rfl | rfl | rfl | rfl | rfl <;> rfl
  · cases h

/-- A command word decodes to a command only. -/
theorem decodeCommand_isCommand {P : Params} {w : BitVec 16} {i : Instr}
    (h : decodeCommand P w = .instr i) : i.isCommand = true := (decodeLetters_instr h).1

/-- A received byte decodes to a byte class only. -/
theorem decodeByte_isByte (P : Params) (acc : Bool) (c : Byte) :
    (decodeByte P acc c).isCommand = false := by
  unfold decodeByte
  split_ifs <;> rfl

/-! ### The byte classes -/

/-- What a byte class does where it answers a next state (R104 to R109). -/
inductive ByteEnd (s : State) : Instr → State → Prop where
  | start (h : 0 < s.cfg.bufLen) :
      ByteEnd s .rxSoc { s with fb := Memory.write s.fb 0 s.cfg.soc, len := 1, acc := true }
  | append (c : Byte) (h : s.len < s.cfg.bufLen) :
      ByteEnd s (.rxData c) { s with fb := Memory.write s.fb s.len c, len := s.len + 1 }
  | dataOverflow (c : Byte) (h : s.cfg.bufLen ≤ s.len) :
      ByteEnd s (.rxData c) (s.abandon .overflow)
  | endOverflow (h : s.cfg.bufLen ≤ s.len) : ByteEnd s .rxEoc (s.abandon .overflow)
  | valid (h : s.len < s.cfg.bufLen) (hv : s.tokenize.valid = true) :
      ByteEnd s .rxEoc { s.tokenize with phase := .dispatch }
  | invalid (h : s.len < s.cfg.bufLen) (hv : s.tokenize.valid = false) :
      ByteEnd s .rxEoc (((s.tokenize.record .checksum).frameReset).emitResponse false)
  | idle (c : Byte) : ByteEnd s (.rxIdle c) s

theorem exec_byte_next {i : Instr} {s t : State} (hi : i.isCommand = false)
    (h : exec i s = .next t) : ByteEnd s i t := by
  cases i
  case rxSoc =>
    obtain ⟨h0, rfl⟩ := State.storeFb_next h
    exact .start h0
  case rxEoc =>
    simp only [exec, execRxEoc] at h
    split at h
    · cases h
      unfold State.frameComplete
      by_cases hv : s.tokenize.valid = true
      · simp only [if_pos hv]
        exact .valid ‹_› hv
      · simp only [if_neg hv]
        exact .invalid ‹_› (by simpa using hv)
    · cases h
      exact .endOverflow (by omega)
  case rxData c =>
    simp only [exec, execRxData] at h
    split at h
    · obtain ⟨_, rfl⟩ := State.storeFb_next h
      exact .append c ‹_›
    · cases h
      exact .dataOverflow c (by omega)
  case rxIdle c =>
    cases h
    exact .idle c
  all_goals cases hi

/-! ### The engine -/

/-- What one step of the engine does where it answers a next state (R6, R102, R110, R113). -/
inductive EngineEnd (s : State) : State → Prop where
  | still (h : s.busy = false) : EngineEnd s s
  | cycleEnd (hb : s.busy = true) (hp : s.phase = .receive) (hl : s.left = 0) :
      EngineEnd s { s with busy := false }
  | received (hb : s.busy = true) (hp : s.phase = .receive) (n : Nat) (c : Byte) (rx : List Byte)
      (hl : s.left = n + 1) (hr : s.rx = c :: rx) (t : State)
      (h : ByteEnd (({ s with left := n, rx := rx } : State).mirror c)
        (decodeByte s.cfg s.acc c) t) : EngineEnd s t
  | unrecognised (hb : s.busy = true) (hp : s.phase = .dispatch) (why : Reject)
      (hd : decodeCommand s.cfg s.cw = .rejected why) :
      EngineEnd s (s.clearPayload.concluded 1#8 .unknown)
  | command (hb : s.busy = true) (hp : s.phase = .dispatch) (i : Instr)
      (hd : decodeCommand s.cfg s.cw = .instr i) (t : State) (h : CommandEnd i s.clearPayload t) :
      EngineEnd s t
  | responded (hb : s.busy = true) (cls : FrameClass) (hp : s.phase = .respond cls) :
      EngineEnd s (s.respondStep cls)

theorem State.engineStep_next {s t : State} (h : s.engineStep = .next t) : EngineEnd s t := by
  unfold State.engineStep at h
  split at h
  · rename_i hb
    split at h
    · rename_i hp
      unfold State.receiveStep at h
      split at h
      · cases h
        exact .cycleEnd hb hp ‹_›
      · cases h
      · rename_i n c rx hl hr
        exact .received hb hp n c rx hl hr t (exec_byte_next (decodeByte_isByte _ _ _) h)
    · rename_i hp
      unfold State.dispatchStep at h
      split at h
      · cases h
      split at h
      · rename_i i hd
        exact .command hb hp i hd t (exec_command_next (decodeCommand_isCommand hd) h)
      · rename_i why hd
        cases h
        exact .unrecognised hb hp why hd
    · rename_i cls hp
      cases h
      exact .responded hb cls hp
  · cases h
    exact .still (by simpa using ‹¬ s.busy = true›)

/-! ### The machine -/

/-- What one step of the machine does where it answers a next state: an engine step, or the host's
next action (R6, R100, R283, R302). -/
inductive StepEnd (s : State) : State → Prop where
  | engine (host : List HostAction) (t : State) (h : EngineEnd { s with host := host } t) :
      StepEnd s t
  | awaited (hb : s.busy = false) (host : List HostAction) : StepEnd s { s with host := host }
  | delivered (host : List HostAction) (c : Byte) :
      StepEnd s { s with host := host, rx := s.rx ++ [c] }
  | started (hb : s.busy = false) (host : List HostAction) (hidden : Nat) :
      StepEnd s (({ s with host := host, busy := true } : State).beginBatch hidden)
  | notified (hb : s.busy = false) (host : List HostAction) (hidden : Nat) (r : Reply)
      (ha : s.answerTo .notifyQuery = .reply r) :
      StepEnd s ((((({ s with host := host, busy := true } : State).called .notifyQuery).notify
        r)).beginBatch hidden)
  | reset (host : List HostAction) (lost : List Bool) :
      StepEnd s (({ s with host := host } : State).systemReset lost)
  | resetDuring (host : List HostAction) (sent : Nat) (lost : List Bool) (t : State)
      (h : EngineEnd { s with host := host } t) :
      StepEnd s ((t.cutTx s.tx.length sent).systemReset lost)
  | startReset (hb : s.busy = false) (host : List HostAction) (sent : Nat) (lost : List Bool) :
      StepEnd s (((({ s with host := host, busy := true } : State).beginBatch 0).cutTx s.tx.length
        sent).systemReset lost)
  | notifyReset (hb : s.busy = false) (host : List HostAction) (sent : Nat) (lost : List Bool)
      (r : Reply) (ha : s.answerTo .notifyQuery = .reply r) :
      StepEnd s (((((({ s with host := host, busy := true } : State).called .notifyQuery).notify
        r).beginBatch 0).cutTx s.tx.length sent).systemReset lost)

/-- A step that a reset cuts short was a step. -/
theorem cutShort_next {before sent : Nat} {lost : List Bool} {r : Result} {t : State}
    (h : cutShort before sent lost r = .next t) :
    ∃ u, r = .next u ∧ t = (u.cutTx before sent).systemReset lost := by
  cases r with
  | next u => exact ⟨u, rfl, (Host.Outcome.next.inj h).symm⟩
  | fault _ => cases h
  | refused _ => cases h

/-- The start of a cycle, where it answers a next state. -/
theorem State.startCycle_next {s t : State} {notifyEn : Bool} {hidden : Nat}
    (h : s.startCycle notifyEn hidden = .next t) :
    s.busy = false ∧ (t = ({ s with busy := true } : State).beginBatch hidden ∨
      ∃ r, s.answerTo .notifyQuery = .reply r ∧
        t = ((({ s with busy := true } : State).called .notifyQuery).notify r).beginBatch hidden) := by
  unfold State.startCycle at h
  split_ifs at h with hb hn
  · rcases State.transact_next h with ⟨r, ha, h⟩ | ⟨lost, ha, _⟩
    · exact ⟨by simpa using hb, .inr ⟨r, ha, (Host.Outcome.next.inj h).symm⟩⟩
    · cases State.answerTo_resets ha
  · exact ⟨by simpa using hb, .inl (Host.Outcome.next.inj h).symm⟩

theorem step_next {s t : State} (h : step s = .next t) : s.cfg.ok = true ∧ StepEnd s t := by
  unfold step at h
  split at h
  swap
  · cases h
  refine ⟨‹_›, ?_⟩
  unfold State.hostStep at h
  split at h
  · rename_i hh
    have he := State.engineStep_next h
    refine .engine [] t ?_
    rwa [show ({ s with host := [] } : State) = s by rw [← hh]]
  · exact .engine _ t (State.engineStep_next h)
  · rename_i rest hh
    split at h
    · have he := State.engineStep_next h
      refine .engine s.host t he
    · cases h
      exact .awaited (by simpa using ‹¬ s.busy = true›) rest
  · cases h
    exact .delivered _ _
  · rename_i notifyEn hidden rest hh
    obtain ⟨hb, rfl | ⟨r, ha, rfl⟩⟩ := State.startCycle_next h
    · exact StepEnd.started (s := s) hb rest hidden
    · exact StepEnd.notified (s := s) hb rest hidden r ha
  · cases h
    exact .reset _ _
  · rename_i sent lost rest hh
    obtain ⟨u, hu, rfl⟩ := cutShort_next h
    exact .resetDuring rest sent lost u (State.engineStep_next hu)
  · rename_i notifyEn sent lost rest hh
    obtain ⟨u, hu, rfl⟩ := cutShort_next h
    obtain ⟨hb, rfl | ⟨r, ha, rfl⟩⟩ := State.startCycle_next hu
    · exact StepEnd.startReset (s := s) hb rest sent lost
    · exact StepEnd.notifyReset (s := s) hb rest sent lost r ha

/-! ### The reset and the channel -/

/-- What a reset leaves of the RX channel is in the channel's order (R302). -/
theorem keepPending_sublist (marks : List Bool) (rx : List Byte) :
    (keepPending marks rx).Sublist rx := by
  induction rx generalizing marks with
  | nil => cases marks <;> exact List.Sublist.refl _
  | cons c rx ih =>
    cases marks with
    | nil => exact List.Sublist.refl _
    | cons b marks =>
      cases b
      · simpa [keepPending] using ih marks
      · simpa [keepPending] using (ih marks).trans (List.sublist_cons_self _ _)

end Machine
end Sys2Proof
end

