-- ==== Sys2Proof/Tests/Slice0.lean ====
section
/-! SUPPORT. The model's own tests: ill-formed terms refused, words written out from R70 and R82
decoded, one-step vectors of 95_test_vectors.md, and a witness for the hypotheses of each statement. -/

namespace Sys2Proof
namespace Tests

open Machine

/-! ### Helpers -/

/-- The ASCII bytes of a text. -/
def txt (t : String) : List Byte := t.toList.map fun c => BitVec.ofNat 8 c.toNat

/-- The next state, where there is one. -/
def next? : Result → Option State
  | .next t => some t
  | _ => none

/-- The fault, where there is one. -/
def fault? : Result → Option Fault
  | .fault r => some r
  | _ => none

/-- The refusal, where there is one. -/
def refusal? : Result → Option Refusal
  | .refused r => some r
  | _ => none

/-- The collaborator's answer of status 0, every other result 0 or empty. -/
def good : Reply := ⟨0#8, 0#8, 0#8, 0#8, 0#16, 0#8, 0, [], false⟩

/-- The collaborator's answer of status 1. -/
def bad : Reply := { good with status := 1#8 }

/-- A cycle in progress in which the bytes `bs` are collected. -/
def holding (bs : List Byte) : State :=
  { State.reset with acc := true, len := bs.length, fb := frameOfBytes bs, busy := true }

/-- A frame (less its end byte) collected. -/
def inFrame (t : String) : State := holding (txt t)

/-- A frame completed and about to be dispatched, the collaborator's next answer being `a`. -/
def ready (t : String) (a : Answer) : State :=
  { (inFrame t).tokenize with phase := .dispatch, answers := [a] }

/-- A full frame buffer. -/
def full : State := holding (txt "$" ++ List.replicate 31 0x41#8)

/-- A batch of one byte. -/
def batchOf (c : Byte) (s : State) : State := { s with busy := true, left := 1, rx := [c] }

/-- The transactions a command issues. -/
def ctlOf (i : Instr) (s : State) : Option (List CtlOp) := (next? (exec i s)).map (·.ctl)

/-- The payload a command leaves. -/
def payloadOf (i : Instr) (s : State) : Option (List Byte) :=
  (next? (exec i s)).map fun t => t.payload t.okBit

/-- What a step appends to the TX channel of a machine that has sent nothing. -/
def sentBy (s : State) : Option (List Byte) := (next? (step s)).map (·.tx)

/-! ### Well-formedness (R7, R71, R303): each check refuses an ill-formed term -/

theorem test_params_default_ok : Params.default.ok = true := by decide
theorem test_params_equal_sentinels : ({ Params.default with eoc := 0x24#8 } : Params).ok = false := by
  decide
theorem test_params_soc_nul : ({ Params.default with soc := 0x00#8 } : Params).ok = false := by decide
theorem test_params_soc_space : ({ Params.default with soc := 0x20#8 } : Params).ok = false := by decide
theorem test_params_soc_asterisk : ({ Params.default with soc := 0x2A#8 } : Params).ok = false := by decide
theorem test_params_soc_digit : ({ Params.default with soc := 0x30#8 } : Params).ok = false := by decide
theorem test_params_soc_letter : ({ Params.default with soc := 0x5A#8 } : Params).ok = false := by decide
theorem test_params_eoc_nul : ({ Params.default with eoc := 0x00#8 } : Params).ok = false := by decide
theorem test_params_eoc_space : ({ Params.default with eoc := 0x20#8 } : Params).ok = false := by decide
theorem test_params_eoc_asterisk : ({ Params.default with eoc := 0x2A#8 } : Params).ok = false := by decide
theorem test_params_eoc_digit : ({ Params.default with eoc := 0x39#8 } : Params).ok = false := by decide
theorem test_params_eoc_letter : ({ Params.default with eoc := 0x41#8 } : Params).ok = false := by decide
theorem test_params_buffer_short : ({ Params.default with bufLen := 1 } : Params).ok = false := by decide
theorem test_params_few_tokens : ({ Params.default with maxTokens := 6 } : Params).ok = false := by decide
theorem test_params_no_payload_room : ({ Params.default with respLen := 0 } : Params).ok = false := by
  decide
theorem test_params_version_sentinel :
    ({ Params.default with rapiVer := some [0x24#8] } : Params).ok = false := by decide
theorem test_params_present_byte_class :
    ({ Params.default with present := [.rxSoc] } : Params).ok = false := by decide
theorem test_params_neighbours_allowed :
    sentinelAllowed 0x2F#8 = true ∧ sentinelAllowed 0x3A#8 = true ∧ sentinelAllowed 0x40#8 = true ∧
      sentinelAllowed 0x5B#8 = true := by decide
theorem test_bad_parameters_refused :
    refusal? (step (State.resetOf { Params.default with bufLen := 1 })) = some .badParameters := by decide

theorem test_illformed_end_idle : Instr.wellFormed .default false .rxEoc = false := by decide
theorem test_illformed_data_idle : Instr.wellFormed .default false (.rxData 0x41#8) = false := by decide
theorem test_illformed_data_start : Instr.wellFormed .default true (.rxData 0x24#8) = false := by decide
theorem test_illformed_data_end : Instr.wellFormed .default true (.rxData 0x0D#8) = false := by decide
theorem test_illformed_idle_collecting : Instr.wellFormed .default true (.rxIdle 0x41#8) = false := by
  decide
theorem test_illformed_idle_start : Instr.wellFormed .default false (.rxIdle 0x24#8) = false := by decide
theorem test_illformed_absent :
    Instr.wellFormed { Params.default with present := [.fd] } true .fe = false := by decide

/-! ### Decoding: every constructor's word, bit by bit from R70 and R82 -/

theorem test_decode_fb : decode .default true [0b01000110#8, 0b01000010#8] = .instr .fb := by decide
theorem test_decode_fd : decode .default true [0b01000110#8, 0b01000100#8] = .instr .fd := by decide
theorem test_decode_fe : decode .default true [0b01000110#8, 0b01000101#8] = .instr .fe := by decide
theorem test_decode_fp : decode .default true [0b01000110#8, 0b01010000#8] = .instr .fp := by decide
theorem test_decode_fr : decode .default true [0b01000110#8, 0b01010010#8] = .instr .fr := by decide
theorem test_decode_fs : decode .default true [0b01000110#8, 0b01010011#8] = .instr .fs := by decide
theorem test_decode_s1 : decode .default true [0b01010011#8, 0b00110001#8] = .instr .s1 := by decide
theorem test_decode_sc : decode .default true [0b01010011#8, 0b01000011#8] = .instr .sc := by decide
theorem test_decode_sd : decode .default true [0b01010011#8, 0b01000100#8] = .instr .sd := by decide
theorem test_decode_se : decode .default true [0b01010011#8, 0b01000101#8] = .instr .se := by decide
theorem test_decode_sg : decode .default true [0b01010011#8, 0b01000111#8] = .instr .sg := by decide
theorem test_decode_sl : decode .default true [0b01010011#8, 0b01001100#8] = .instr .sl := by decide
theorem test_decode_sr : decode .default true [0b01010011#8, 0b01010010#8] = .instr .sr := by decide
theorem test_decode_ss : decode .default true [0b01010011#8, 0b01010011#8] = .instr .ss := by decide
theorem test_decode_st : decode .default true [0b01010011#8, 0b01010100#8] = .instr .st := by decide
theorem test_decode_sv : decode .default true [0b01010011#8, 0b01010110#8] = .instr .sv := by decide
theorem test_decode_gc : decode .default true [0b01000111#8, 0b01000011#8] = .instr .gc := by decide
theorem test_decode_ge : decode .default true [0b01000111#8, 0b01000101#8] = .instr .ge := by decide
theorem test_decode_gs : decode .default true [0b01000111#8, 0b01010011#8] = .instr .gs := by decide
theorem test_decode_gt : decode .default true [0b01000111#8, 0b01010100#8] = .instr .gt := by decide
theorem test_decode_gv : decode .default true [0b01000111#8, 0b01010110#8] = .instr .gv := by decide
theorem test_decode_rxSoc : decode .default false [0b00100100#8] = .instr .rxSoc := by decide
theorem test_decode_rxEoc : decode .default true [0b00001101#8] = .instr .rxEoc := by decide
theorem test_decode_rxData : decode .default true [0b01011010#8] = .instr (.rxData 0x5A#8) := by decide
theorem test_decode_rxIdle : decode .default false [0b00001101#8] = .instr (.rxIdle 0x0D#8) := by decide

/-- V3-1, V3-2, V3-3, V3-4, V3-8: what is no instruction, by name. -/
theorem test_decode_rejects :
    decode .default true (txt "XX") = .rejected (.unknownCategory 0x58#8) ∧
    decode .default true (txt "FZ") = .rejected (.unknownSubLetter 0x46#8 0x5A#8) ∧
    decode .default true (txt "fe") = .rejected (.unknownCategory 0x66#8) ∧
    decode .default true [0x46#8, 0x00#8] = .rejected (.unknownSubLetter 0x46#8 0x00#8) ∧
    decode { Params.default with present := [.fd] } true (txt "FE") = .rejected (.notCompiledIn .fe) ∧
    decode .default true (txt "FEX") = .rejected (.badLength 3) := by decide

/-! ### The tokenizer and the parsers (V2, V7-a) -/

/-- V2-a, the row of `$FP 0 1  A  B*5E`. -/
theorem test_tokenize_print :
    let t := (inFrame "$FP 0 1  A  B*5E").tokenize
    t.tcnt = 7 ∧ (List.range 7).map t.arg = [txt "FP", txt "0", txt "1", [], txt "A", [], txt "B"] ∧
      t.scanEnd = 13 ∧ t.sum = 0x5E#8 ∧ t.decl = 0x5E#8 ∧ t.starSeen = true := by decide

/-- V2-a, the row of `$FE<00>*AF`: a `NUL` ends the scan. -/
theorem test_tokenize_nul :
    let t := (holding (txt "$FE" ++ [0x00#8] ++ txt "*AF")).tokenize
    t.tcnt = 1 ∧ t.scanEnd = 3 ∧ t.sum = 0xAF#8 ∧ t.decl = 0#8 ∧ t.starSeen = false := by decide

/-- V2-a, the rows of `$ FE` and `$*FE`: index 1 is never a separator. -/
theorem test_tokenize_index_one :
    (inFrame "$ FE").tokenize.tcnt = 1 ∧ (inFrame "$ FE").tokenize.sum = 0xCF#8 ∧
    (inFrame "$*FE").tokenize.scanEnd = 4 ∧ (inFrame "$*FE").tokenize.sum = 0xD9#8 := by decide

/-- V2-a, the rows of `$FE*A` and `$FE*af`: a missing or lowercase digit reads 0. -/
theorem test_tokenize_short_trailer :
    (inFrame "$FE*A").tokenize.decl = 0xA0#8 ∧ (inFrame "$FE*af").tokenize.decl = 0#8 := by decide

/-- V2-a, the row of `$FE 1`: sum 0 without a trailer is valid. -/
theorem test_tokenize_zero_sum :
    let t := (inFrame "$FE 1").tokenize
    t.tcnt = 2 ∧ t.valid = true ∧ t.starSeen = false := by decide

/-- V2-b. -/
theorem test_dtou :
    dtou [] = 0#8 ∧ dtou (txt "016") = 16#8 ∧ dtou (txt "256") = 0#8 ∧ dtou (txt "300") = 44#8 ∧
    dtou (txt "999") = 231#8 ∧ dtou (txt "A") = 17#8 ∧ dtou (txt "-1") = 227#8 ∧
    dtou (txt "12a") = 169#8 := by decide

/-- V2-c. -/
theorem test_htou :
    htou 0x41#8 0x46#8 = 0xAF#8 ∧ htou 0x31#8 0x39#8 = 0x19#8 ∧ htou 0x61#8 0x66#8 = 0#8 ∧
    htou 0x30#8 0x47#8 = 0#8 ∧ htou 0x39#8 0x00#8 = 0x90#8 := by decide

/-- V7-a. -/
theorem test_dec :
    dec 0 = txt "0" ∧ dec 9 = txt "9" ∧ dec 16 = txt "16" ∧ dec 255 = txt "255" ∧
    dec 4294967295 = txt "4294967295" := by decide

/-- V7-a. -/
theorem test_hex4 :
    hex4 0#16 = txt "0000" ∧ hex4 0x00A0#16 = txt "00a0" ∧ hex4 0x0201#16 = txt "0201" ∧
    hex4 0xBEEF#16 = txt "beef" := by decide

/-- R87's example checksum, L1-7: `⟦FE⟧` is `$FE*AF<EOC>`. -/
theorem test_frameOf : frameOf .default (txt "FE") = txt "$FE*AF" ++ [0x0D#8] := by decide

/-! ### The byte classes (L1-4, V1) -/

/-- L1-4, V1-13: a start byte restarts even a full buffer. -/
theorem test_rxSoc : (next? (exec .rxSoc full)).map (fun t => (t.acc, t.len, t.fbByte 0)) =
    some (true, 1, 0x24#8) := by decide

/-- V1-3: no room for the byte. -/
theorem test_rxData_full : (next? (exec (.rxData 0x5A#8) full)).map (fun t => (t.acc, t.len, t.tx)) =
    some (false, 0, []) := by decide

/-- V1-7, after cycle 1: `$F` gives `LEN` 2. -/
theorem test_rxData : (next? (exec (.rxData 0x46#8) (inFrame "$"))).map
    (fun t => (t.acc, t.len, t.fbByte 1)) = some (true, 2, 0x46#8) := by decide

/-- L1-2: a wrong checksum is answered `NK ` and the frame is reset. -/
theorem test_rxEoc_checksum : (next? (exec .rxEoc (inFrame "$FD*AF"))).map
    (fun t => (t.acc, t.len, t.tx, t.ctl)) = some (false, 0, txt "$NK " ++ [0x0D#8], []) := by decide

/-- V1-2: an end byte at a full buffer is an overflow, recorded with the bytes stored before it. -/
theorem test_rxEoc_full : (next? (exec .rxEoc full)).map
    (fun t => (t.acc, t.tx, t.events.map fun e => (e.cls, e.bytes.length))) =
    some (false, [], [(.overflow, 32)]) := by decide

/-- V1-4: an end byte while idle is discarded. -/
theorem test_rxIdle : next? (exec (.rxIdle 0x0D#8) State.reset) = some State.reset := by decide

/-! ### The commands (V3 to V6) -/

theorem test_fe : ctlOf .fe (ready "$FE*AF" (.returned good)) = some [.enable] := by decide
theorem test_fe_arity : (next? (exec .fe (ready "$FE 1*00" (.returned good)))).map
    (fun t => (t.phase, t.ctl)) = some (.respond .arity, []) := by decide
theorem test_fd : ctlOf .fd (ready "$FD*AE" (.returned good)) = some [.disable] := by decide
theorem test_fs : ctlOf .fs (ready "$FS*BD" (.returned good)) = some [.sleep] := by decide
theorem test_fr_returns : (next? (exec .fr (ready "$FR*BC" (.returned { good with status := 2#8 })))).map
    (fun t => (t.phase, t.ctl)) = some (.respond .handlerFail, [.reset]) := by decide
theorem test_fr_resets : (next? (exec .fr (ready "$FR*BC" (.resets [])))).map
    (fun t => (t.busy, t.tx, t.ctl, t.events.map (·.cls))) =
    some (false, [], [.reset], [.reset]) := by decide
/-- R183, D21: as the first instruction after reset, with no answer given, FR takes one of its two
branches, whichever the free value names. -/
theorem test_fr_free_branch :
    ∃ t, step (State.reset.withFetchWord 16 0x4652) = .next t ∧ t.ctl = [.reset] ∧ t.tx = [] := by
  let s := ({ State.reset.withFetchWord 16 0x4652 with host := [] } : State).clearPayload
  have e : step (State.reset.withFetchWord 16 0x4652) = s.command .reset := rfl
  rcases State.answerTo_free (s := s) .reset rfl with h | ⟨_, h⟩
  · exact ⟨_, e.trans (State.transact_reply _ h), rfl, rfl⟩
  · exact ⟨_, e.trans (State.transact_resets _ h), rfl, rfl⟩
theorem test_fb : ctlOf .fb (ready "$FB 7*03" (.returned good)) = some [.backlight 7#8] := by decide
theorem test_fb_wraps : ctlOf .fb (ready "$FB 300*5F" (.returned good)) = some [.backlight 44#8] := by
  decide
theorem test_fp : ctlOf .fp (ready "$FP 0 1  A  B*5E" (.returned good)) =
    some [.print 0#8 1#8 (txt " A  B")] := by decide
theorem test_fp_arity : (next? (exec .fp (ready "$FP 1 2*5D" (.returned good)))).map
    (fun t => (t.phase, t.ctl)) = some (.respond .arity, []) := by decide
theorem test_se : (next? (exec .se (ready "$SE 2*0E" .never))).map (fun t => (t.echo, t.ctl)) =
    some (true, []) := by decide
theorem test_se_wraps : (next? (exec .se { ready "$SE 256*79" .never with echo := true })).map
    (fun t => (t.echo, t.status)) = some (false, 0#8) := by decide
theorem test_sc : ctlOf .sc (ready "$SC 016*71" (.returned good)) = some [.setCapacity 16#8] := by decide
theorem test_sd : ctlOf .sd (ready "$SD 5*10" (.returned good)) = some [.setDiodeChk true] := by decide
theorem test_sg : ctlOf .sg (ready "$SG 1*0F" (.returned good)) = some [.setGndChk true] := by decide
theorem test_sr : ctlOf .sr (ready "$SR 0*19" (.returned good)) = some [.setRelayChk false] := by decide
theorem test_ss : ctlOf .ss (ready "$SS 1*1B" (.returned good)) = some [.setSelftest true] := by decide
theorem test_sv : ctlOf .sv (ready "$SV 0*1D" (.returned good)) = some [.setVentReq false] := by decide
theorem test_sl : ctlOf .sl (ready "$SL 2X*6D" (.returned good)) = some [.setSvcLevel .level2] := by decide
theorem test_sl_rejects : (next? (exec .sl (ready "$SL a*44" (.returned good)))).map
    (fun t => (t.phase, t.ctl)) = some (.respond .arg, []) := by decide
theorem test_st : ctlOf .st (ready "$ST 22 0 6 30*78" (.returned good)) =
    some [.timerSet 22#8 0#8 6#8 30#8] := by decide
theorem test_st_disables : ctlOf .st (ready "$ST 0 256 0 0*78" (.returned good)) =
    some [.timerDisable] := by decide
theorem test_s1 : ctlOf .s1 (ready "$S1 2013 1 2 3 4 5*2D" (.returned good)) =
    some [.setTime 221#8 1#8 2#8 3#8 4#8 5#8] := by decide
theorem test_gc : payloadOf .gc (ready "$GC*AE" (.returned { good with lo := 6#8, hi := 40#8 })) =
    some (txt "6 40") := by decide
theorem test_gc_fails : (next? (exec .gc (ready "$GC*AE" (.returned bad)))).map
    (fun t => (t.phase, t.pflag)) = some (.respond .handlerFail, false) := by decide
theorem test_gs : payloadOf .gs
    (ready "$GS*BE" (.returned { good with cap := 16#8, flags := 0x0201#16 })) =
    some (txt "16 0201") := by decide
theorem test_ge : payloadOf .ge
    (ready "$GE*B0" (.returned { good with st := 255#8, el := 4294967295 })) =
    some (txt "255 4294967295") := by decide
theorem test_gt : payloadOf .gt
    (ready "$GT*BF" (.returned { good with text := txt "0123456789ABCDEFGHIJKLMNOPQRSTUVWXYZ" })) =
    some (txt "0123456789ABCDEFGHIJKLMNOPQRSTU") := by decide
theorem test_gt_sentinel : refusal? (exec .gt
    (ready "$GT*BF" (.returned { good with text := txt "1$2" }))) = some .textHoldsSentinel := by decide
theorem test_gv : payloadOf .gv
    { ready "$GV*C1" (.returned { good with text := txt "2.0.1" }) with
      cfg := { Params.default with rapiVer := some (txt "1.0.0") } } =
    some (txt "2.0.1 1.0.0") := by decide

/-! ### The engine's steps (V1, V3, V7-b) -/

/-- V1-8: an idle byte is echoed. -/
theorem test_echo : sentBy (batchOf 0x78#8 { State.reset with echo := true }) = some (txt "x") := by decide

/-- V3-5: token 0's third byte is ignored, so `$FEX*07` runs FE. -/
theorem test_step_dispatch : (next? (step (ready "$FEX*07" (.returned good)))).map (·.ctl) =
    some [.enable] := by decide

/-- V3-4b: both letters come from token 0. -/
theorem test_step_unknown : (next? (step (ready "$F E*CF" (.returned good)))).map
    (fun t => (t.phase, t.ctl)) = some (.respond .unknown, []) := by decide

/-- The positive response's five bytes (R250). -/
theorem test_step_response :
    sentBy { inFrame "$FE*AF" with phase := .respond .ok } = some [0x24#8, 0x4F#8, 0x4B#8, 0x20#8, 0x0D#8] := by
  decide

/-- V7-b: the notification of state 254 (V1-11). -/
theorem test_step_notify : sentBy
    { State.reset with
      host := [.strobe true 0]
      answers := [.returned { good with changed := true, st := 254#8 }] } =
    some (txt "$ST 254" ++ [0x0D#8]) := by decide

/-- R302: a reset cuts that notification after two bytes. -/
theorem test_step_notify_cut : (next? (step
    { State.reset with
      host := [.strobeReset true 2 []]
      answers := [.returned { good with changed := true, st := 254#8 }] })).map
    (fun t => (t.tx, t.busy)) = some (txt "$S", false) := by decide

/-- R302: a reset loses the marked pending bytes only. -/
theorem test_step_reset_pending :
    (next? (step { State.reset with host := [.reset [true, false]], rx := txt "abc" })).map (·.rx) =
    some (txt "bc") := by decide

/-- R286: a transaction that never returns. -/
theorem test_step_stuck : fault? (step (ready "$FE*AF" .never)) = some .collaboratorHangs := by decide

/-- R286: only `C_RESET` may reset the system. -/
theorem test_step_foreign_reset :
    refusal? (step (ready "$FE*AF" (.resets []))) = some .resetNotByReset := by decide

/-- R282. -/
theorem test_step_reentrant :
    refusal? (step { State.reset with busy := true, host := [.strobe false 0] }) =
    some .reentrantCycle := by decide

/-- Log entry 21: a promised byte that is not there. -/
theorem test_step_underrun :
    refusal? (step { State.reset with busy := true, left := 1 }) = some .rxUnderrun := by decide

/-- Log entry 7: an argument whose slot lies outside the frame buffer. -/
theorem test_step_index :
    fault? (exec .fb { State.reset with tcnt := 2, slots := [⟨1, 1⟩, ⟨40, 41⟩] }) =
    some .indexOutOfRange := by decide

/-- The placed instruction is the one the next step runs. -/
theorem test_fetch_word :
    (next? (step (State.reset.withFetchWord 16 0x5331))).map (·.ctl) =
      some [.setTime 0#8 0#8 0#8 0#8 0#8 0#8] ∧
    (next? (step (State.reset.withFetchWord 8 0x5A))).map (fun t => (t.len, t.fbByte 1)) =
      some (2, 0x5A#8) := by decide

/-! ### Witnesses: for each statement with hypotheses, states and operands that meet them together -/

/-- Each class of R70 by a byte that is in it and in no earlier one. -/
theorem test_witness_ByteClassFirstMatch :
    0x24#8 = Params.default.soc ∧
    (0x0D#8 ≠ Params.default.soc ∧ 0x0D#8 = Params.default.eoc) ∧
    (0x25#8 ≠ Params.default.soc ∧ 0x25#8 ≠ Params.default.eoc) := by decide

theorem test_witness_StartByteRestartsFrame : full.cfg.ok = true ∧ State.reset.cfg.ok = true := by decide

/-- At the last index with room. -/
theorem test_witness_DataByteAppends :
    (holding (List.replicate 31 0x41#8)).len < (holding (List.replicate 31 0x41#8)).cfg.bufLen := by
  decide

theorem test_witness_FullBufferAbandonsFrame : full.cfg.bufLen ≤ full.len := by decide

/-- One state and byte class for each clause, the data byte's on both sides of the capacity. -/
theorem test_witness_ByteClassesFrame :
    (Memory.wf full.fb ∧ Memory.wf (inFrame "$FE*AF").fb) ∧
    (∃ t, exec .rxSoc full = .next t) ∧ (∃ t, exec .rxEoc (inFrame "$FE*AF") = .next t) ∧
    (∃ t, exec (.rxData 0x41#8) full = .next t) ∧
    (∃ t, exec (.rxData 0x41#8) (holding (List.replicate 31 0x41#8)) = .next t) ∧
    (∃ t, exec (.rxIdle 0x41#8) State.reset = .next t) :=
  ⟨by decide, ⟨_, rfl⟩, ⟨_, rfl⟩, ⟨_, rfl⟩, ⟨_, rfl⟩, ⟨_, rfl⟩⟩

theorem test_witness_ValidFrameIsDispatched :
    let s := inFrame "$FE*AF"
    s.len < s.cfg.bufLen ∧ s.tokenize.sum = s.tokenize.decl := by decide

theorem test_witness_ChecksumFailureAnswersNK :
    let s := inFrame "$FE*A"
    s.len < s.cfg.bufLen ∧ s.tokenize.sum ≠ s.tokenize.decl := by decide

/-- One host list for each clause. -/
theorem test_witness_HostListMovesEngine :
    (State.reset.cfg.ok = true ∧ State.reset.host = []) ∧
    (let s : State := { State.reset with host := [.run] }
     s.cfg.ok = true ∧ s.host = [.run]) ∧
    (let s : State := { State.reset with busy := true, host := [.await] }
     s.cfg.ok = true ∧ s.host = [.await] ∧ s.busy = true) ∧
    (let s : State := { State.reset with host := [.await] }
     s.cfg.ok = true ∧ s.host = [.await] ∧ s.busy = false) ∧
    (let s : State := { State.reset with host := [.deliver 0x24#8] }
     s.cfg.ok = true ∧ s.host = [.deliver 0x24#8]) := by decide

theorem test_witness_StepRunsReceivedByte :
    let s := batchOf 0x78#8 { State.reset with echo := true }
    s.cfg.ok = true ∧ s.host = [] ∧ s.busy = true ∧ s.phase = .receive ∧ s.left = 0 + 1 ∧
      s.rx = [0x78#8] := by decide

/-- A token 0 of two bytes and a longer one, whose later bytes do not count (D18). -/
theorem test_witness_StepRunsCommand :
    (let s := ready "$FE*AF" (.returned good)
     s.cfg.ok = true ∧ s.host = [] ∧ s.busy = true ∧ s.phase = .dispatch ∧ 3 ≤ s.cfg.bufLen ∧
      1 < s.len ∧ (s.slot 0).ts + 2 ≤ (s.slot 0).te ∧
      decodeCommand s.cfg (s.fbByte 1 ++ s.fbByte 2) = .instr .fe) ∧
    (let s := ready "$FEX*07" (.returned good)
     s.valid = true ∧ (s.slot 0).ts + 2 ≤ (s.slot 0).te ∧
      decodeCommand s.cfg (s.fbByte 1 ++ s.fbByte 2) = .instr .fe) := by decide

/-- A token 0 of two bytes and one of a single byte, whose sub-letter is `NUL` (D18). -/
theorem test_witness_UnrecognisedWordFails :
    (let s := ready "$FZ*C4" (.returned good)
     s.cfg.ok = true ∧ s.host = [] ∧ s.busy = true ∧ s.phase = .dispatch ∧ 3 ≤ s.cfg.bufLen ∧
      1 < s.len ∧ (s.slot 0).ts + 2 ≤ (s.slot 0).te ∧
      decodeCommand s.cfg (s.fbByte 1 ++ s.fbByte 2) =
        .rejected (.unknownSubLetter 0x46#8 0x5A#8)) ∧
    (let s := ready "$F*6A" (.returned good)
     s.valid = true ∧ 1 < s.len ∧ ¬ (s.slot 0).ts + 2 ≤ (s.slot 0).te ∧
      decodeCommand s.cfg (s.fbByte 1 ++ 0x00#8) =
        .rejected (.unknownSubLetter 0x46#8 0x00#8)) := by decide

theorem test_witness_ResponseFrameSent :
    let s : State := { inFrame "$FE*AF" with phase := .respond .ok }
    s.cfg.ok = true ∧ s.host = [] ∧ s.busy = true ∧ s.phase = .respond .ok := by decide

theorem test_witness_CycleEndsAfterBatch :
    let s : State := { State.reset with busy := true }
    s.cfg.ok = true ∧ s.host = [] ∧ s.busy = true ∧ s.phase = .receive ∧ s.left = 0 := by decide

theorem test_witness_CycleStartSamplesBatch :
    let s : State := { State.reset with host := [.strobe false 1], rx := [0x24#8, 0x46#8] }
    s.cfg.ok = true ∧ s.busy = false ∧ s.host = [.strobe false 1] := by decide

theorem test_witness_NotifierSendsStateChange :
    let s : State :=
      { State.reset with
        host := [.strobe true 0], answers := [.returned { good with changed := true }] }
    s.cfg.ok = true ∧ s.busy = false ∧ s.host = [.strobe true 0] ∧
      s.answerTo .notifyQuery = .reply { good with changed := true } := by decide

theorem test_witness_ReentrantStrobeRefused :
    let s : State := { State.reset with busy := true, host := [.strobe false 0] }
    s.cfg.ok = true ∧ s.busy = true ∧ s.host = [.strobe false 0] := by decide

theorem test_witness_SystemResetClearsRegisters :
    let s : State := { inFrame "$FE" with host := [.reset [true]] }
    s.cfg.ok = true ∧ s.host = [.reset [true]] := by decide

/-- Both alternatives of the last hypothesis. -/
theorem test_witness_ResetCutsTransmission :
    (let s : State := { inFrame "$FE*AF" with phase := .respond .ok, host := [.resetDuring 2 []] }
     s.cfg.ok = true ∧ s.host = [.resetDuring 2 []] ∧
      ∃ u, ({ s with host := [] } : State).engineStep = .next u ∧
        u.tx = s.tx ++ (txt "$OK " ++ [0x0D#8])) ∧
    (let s : State :=
      { State.reset with
        host := [.strobeReset true 2 []], answers := [.returned { good with changed := true }] }
     s.cfg.ok = true ∧ s.host = [.strobeReset true 2 []] ∧
      ∃ u, ({ s with host := [] } : State).startCycle true 0 = .next u ∧
        u.tx = s.tx ++ (txt "$ST 0" ++ [0x0D#8])) :=
  ⟨⟨by decide, rfl, _, rfl, by decide⟩, ⟨by decide, rfl, _, rfl, by decide⟩⟩

/-- Each clause: a scan ended by an asterisk, by a `NUL`, and by the end of the shortest frame. -/
theorem test_witness_ScanStopsAtTrailer :
    (2 ≤ (inFrame "$FE*AF").len ∧ (inFrame "$FE*AF").tokenize.scanEnd < 6 ∧
      (inFrame "$FE*AF").fbByte (inFrame "$FE*AF").tokenize.scanEnd = asterisk) ∧
    (let s := holding (txt "$FE" ++ [0x00#8] ++ txt "*AF")
     2 ≤ s.len ∧ s.tokenize.scanEnd < s.len ∧ s.fbByte s.tokenize.scanEnd = nul) ∧
    (2 ≤ (inFrame "$F").len ∧ (inFrame "$F").tokenize.scanEnd = (inFrame "$F").len) := by decide

theorem test_witness_SumIsBodySum : 2 ≤ (inFrame "$F").len := by decide

theorem test_witness_TokenCountCountsSpaces : 2 ≤ (inFrame "$FB 7*03").len := by decide

/-- With one token, with as many as there are slots, and with more. -/
theorem test_witness_TokensSplitBody :
    (let s := inFrame "$FE*AF"
     s.slots.length = s.cfg.maxTokens ∧ 1 ≤ s.cfg.maxTokens ∧ 2 ≤ s.len ∧ s.tokenize.tcnt = 1) ∧
    (let s := inFrame "$FP 1 2 3 4 5 6 7 8 9"
     s.slots.length = s.cfg.maxTokens ∧ 1 ≤ s.cfg.maxTokens ∧ 2 ≤ s.len ∧
      s.tokenize.tcnt = s.cfg.maxTokens) ∧
    (let s := inFrame "$FP 1 2 3 4 5 6 7 8 9 0"
     s.slots.length = s.cfg.maxTokens ∧ 1 ≤ s.cfg.maxTokens ∧ 2 ≤ s.len ∧
      s.tokenize.tcnt = s.cfg.maxTokens + 1) := by decide

theorem test_witness_EmptyBodyFails : (inFrame "$").cfg.ok = true ∧ (inFrame "$").len = 1 := by decide

/-- V3-7's frame, and one whose asterisk stands after a `NUL`. -/
theorem test_witness_MissingTrailerNeedsZeroSum :
    (let s := inFrame "$FE 1"
     ∀ j, 2 ≤ j → j < s.len → s.fbByte j = asterisk → ∃ k, 2 ≤ k ∧ k < j ∧ s.fbByte k = nul) ∧
    (let s := holding (txt "$FE" ++ [0x00#8] ++ txt "*")
     ∀ j, 2 ≤ j → j < s.len → s.fbByte j = asterisk → ∃ k, 2 ≤ k ∧ k < j ∧ s.fbByte k = nul) := by
  refine ⟨fun j h2 hj h => ?_, fun j h2 hj h => ⟨3, by decide, ?_, by decide⟩⟩
  · have hj : j < 5 := hj
    interval_cases j <;> exact absurd h (by decide)
  · have hj : j < 5 := hj
    interval_cases j <;> first | decide | exact absurd h (by decide)

/-- The first and the last byte before the scan's end, changed to `'D'`. -/
theorem test_witness_SingleByteCorruptionDetected :
    let s := inFrame "$FE*AF"
    Memory.wf s.fb ∧ 2 ≤ s.len ∧ s.tokenize.valid = true ∧ s.tokenize.scanEnd = 3 ∧
      0x44#8 ≠ s.fbByte 1 ∧ 0x44#8 ≠ s.fbByte 2 ∧ 0x44#8 ≠ asterisk ∧ 0x44#8 ≠ nul := by decide

/-- The longest body that completes (V1-1), from the idle state with echo on. -/
theorem test_witness_ChecksummedFrameAccepted :
    let body := txt "P 1 2 " ++ List.replicate 19 0x41#8
    let frame := frameOf .default (0x46#8 :: body)
    let s : State := { State.reset with busy := true, echo := true, rx := frame, left := frame.length }
    s.cfg.ok = true ∧ Memory.wf s.fb ∧ s.host = [] ∧ s.busy = true ∧ s.phase = .receive ∧
      s.rx = frameOf s.cfg (0x46#8 :: body) ++ [] ∧
      s.left = 0 + (frameOf s.cfg (0x46#8 :: body)).length ∧
      (0x46#8 :: body).length + 4 < s.cfg.bufLen ∧
      (∀ b ∈ 0x46#8 :: body, s.cfg.isSentinel b = false) ∧ ∀ b ∈ body, b ≠ asterisk ∧ b ≠ nul := by
  decide

/-- The digits of a sum, and the bytes next to the ranges of digits, which read 0 (R140, D15). -/
theorem test_witness_ChecksumDigitsRoundTrip :
    hex2 0xAF#8 = [0x41#8, 0x46#8] ∧ hv 0x39#8 = 9#8 ∧ hv 0x46#8 = 15#8 ∧
    [0x00#8, 0x2F#8, 0x3A#8, 0x40#8, 0x47#8, 0x61#8].map hv = List.replicate 6 0#8 := by decide

theorem test_witness_DecimalTextRoundTrip : (0 : Nat) = 0 ∧ 300 ≠ 0 ∧ dec 300 = txt "300" := by decide

theorem test_witness_FunctionCommandsComplete :
    let s := ready "$FE*AF" (.returned good)
    s.tcnt = 1 ∧ s.answerTo .enable = .reply good ∧ s.answerTo .disable = .reply good ∧
      s.answerTo .sleep = .reply good := by decide

theorem test_witness_WatchdogResetHasTwoBranches :
    ((ready "$FR*BC" (.returned bad)).tcnt = 1 ∧
      (ready "$FR*BC" (.returned bad)).answerTo .reset = .reply bad) ∧
    ((ready "$FR*BC" (.resets [true])).tcnt = 1 ∧
      (ready "$FR*BC" (.resets [true])).answerTo .reset = .resets [true]) ∧
    (let s : State := { ready "$FR*BC" .never with answers := [] }
     s.tcnt = 1 ∧ s.answers = []) := by decide

theorem test_witness_BacklightSetsValue :
    let s := ready "$FB 7*03" (.returned good)
    s.tcnt = 2 ∧ s.slotInRange 1 = true ∧ s.answerTo (.backlight (dtou (s.arg 1))) = .reply good := by
  decide

/-- The least count FP takes, and one more than a fixed arity would. -/
theorem test_witness_PrintSendsFreeText :
    (let s := ready "$FP 0 1 X*D3" (.returned good)
     s.tcnt = 4 ∧ (s.slotInRange 1 = true ∧ s.slotInRange 2 = true ∧ s.slotInRange 3 = true) ∧
      s.scanEnd ≤ s.cfg.bufLen ∧ s.answerTo (.print 0#8 1#8 (txt "X")) = .reply good) ∧
    (let s := ready "$FP 0 1 HELLO WORLD*97" (.returned good)
     4 ≤ s.tcnt ∧ (s.slotInRange 1 = true ∧ s.slotInRange 2 = true ∧ s.slotInRange 3 = true) ∧
      s.scanEnd ≤ s.cfg.bufLen) := by decide

theorem test_witness_EchoSwitchWritesEcho :
    let s := ready "$SE 1*0D" .never
    s.tcnt = 2 ∧ s.slotInRange 1 = true := by decide

theorem test_witness_CapacityIsSet :
    let s := ready "$SC 016*71" (.returned good)
    s.tcnt = 2 ∧ s.slotInRange 1 = true ∧
      s.answerTo (.setCapacity (dtou (s.arg 1))) = .reply good := by decide

theorem test_witness_CheckSwitchesComplete :
    let s := ready "$SD 0*0B" (.returned good)
    s.tcnt = 2 ∧ s.slotInRange 1 = true ∧ s.answerTo (.setDiodeChk false) = .reply good ∧
      s.answerTo (.setGndChk false) = .reply good ∧ s.answerTo (.setRelayChk false) = .reply good ∧
      s.answerTo (.setSelftest false) = .reply good ∧
      s.answerTo (.setVentReq false) = .reply good := by decide

/-- One argument for each clause. -/
theorem test_witness_ServiceLevelSelects :
    (let s := ready "$SL 1*14" (.returned good)
     s.tcnt = 2 ∧ s.slotInRange 1 = true ∧ (s.arg 1).headD 0x00#8 = 0x31#8 ∧
      s.answerTo (.setSvcLevel .level1) = .reply good) ∧
    (let s := ready "$SL 2*15" (.returned good)
     s.tcnt = 2 ∧ s.slotInRange 1 = true ∧ (s.arg 1).headD 0x00#8 = 0x32#8 ∧
      s.answerTo (.setSvcLevel .level2) = .reply good) ∧
    (let s := ready "$SL A*24" (.returned good)
     s.tcnt = 2 ∧ s.slotInRange 1 = true ∧ (s.arg 1).headD 0x00#8 = 0x41#8 ∧
      s.answerTo .setAutoSvc = .reply good) ∧
    (let s := ready "$SL 3*16" (.returned good)
     s.tcnt = 2 ∧ s.slotInRange 1 = true ∧ (s.arg 1).headD 0x00#8 = 0x33#8) ∧
    (let s := ready "$SL *E3" (.returned good)
     s.tcnt = 2 ∧ s.slotInRange 1 = true ∧ s.arg 1 = []) := by decide

/-- Both sides of the test on the four values. -/
theorem test_witness_TimerScheduleOrDisable :
    (let s := ready "$ST 0 0 0 0*0B" (.returned good)
     s.tcnt = 5 ∧ (∀ j < 4, s.slotInRange (j + 1) = true) ∧
      s.answerTo .timerDisable = .reply good) ∧
    (let s := ready "$ST 22 0 6 30*78" (.returned good)
     s.tcnt = 5 ∧ (∀ j < 4, s.slotInRange (j + 1) = true) ∧
      s.answerTo (.timerSet 22#8 0#8 6#8 30#8) = .reply good) := by decide

theorem test_witness_ClockIsSet :
    let s := ready "$S1 13 11 11 20 5 0*57" (.returned good)
    s.tcnt = 7 ∧ (∀ j < 6, s.slotInRange (j + 1) = true) ∧
      s.answerTo (.setTime 13#8 11#8 11#8 20#8 5#8 0#8) = .reply good := by decide

theorem test_witness_QueriesAnswerPayload :
    let s := ready "$GC*AE" (.returned good)
    s.tcnt = 1 ∧ good.status = 0#8 ∧ s.answerTo .getCapRange = .reply good ∧
      s.answerTo .getSettings = .reply good ∧ s.answerTo .getState = .reply good ∧
      s.answerTo .getTime = .reply good ∧ s.answerTo .getVersion = .reply good := by decide

theorem test_witness_FailedQueriesSendNothing :
    let s := ready "$GC*AE" (.returned bad)
    s.tcnt = 1 ∧ bad.status ≠ 0#8 ∧ s.answerTo .getCapRange = .reply bad ∧
      s.answerTo .getSettings = .reply bad ∧ s.answerTo .getState = .reply bad ∧
      s.answerTo .getTime = .reply bad ∧ s.answerTo .getVersion = .reply bad := by decide

/-- Each alternative, at a count next to the arity. -/
theorem test_witness_ArityMismatchFails :
    (Instr.fe ∈ [Instr.fe, .fd, .fs, .fr, .gc, .gs, .ge, .gt, .gv] ∧
      (ready "$FE 1*00" .never).tcnt = 2) ∧
    (Instr.sc ∈ [Instr.fb, .se, .sc, .sd, .sg, .sl, .sr, .ss, .sv] ∧ (ready "$SC*BA" .never).tcnt = 1) ∧
    (ready "$FP 1 2*5D" .never).tcnt = 3 ∧ (inFrame "$ST 0 0 0").tokenize.tcnt = 4 ∧
    (inFrame "$S1 1 2 3 4 5").tokenize.tcnt = 6 := by decide

/-- One state for each clause. -/
theorem test_witness_HangingTransactionStopsEngine :
    ((ready "$FE*AF" .never).tcnt = 1 ∧ (ready "$FE*AF" .never).answers = [.never]) ∧
    (let s := ready "$FB 7*03" .never
     s.answers = [.never] ∧ s.tcnt = 2 ∧ s.slotInRange 1 = true) ∧
    (let s := ready "$SL A*24" .never
     s.answers = [.never] ∧ s.tcnt = 2 ∧ s.slotInRange 1 = true ∧ (s.arg 1).headD 0x00#8 = 0x41#8) ∧
    (let s := ready "$FP 0 1 X*D3" .never
     s.answers = [.never] ∧ s.tcnt = 4 ∧ (∀ j < 3, s.slotInRange (j + 1) = true) ∧
      s.scanEnd ≤ s.cfg.bufLen) ∧
    (let s := ready "$ST 0 0 0 0*0B" .never
     s.answers = [.never] ∧ s.tcnt = 5 ∧ ∀ j < 4, s.slotInRange (j + 1) = true) ∧
    (let s := ready "$S1 13 11 11 20 5 0*57" .never
     s.answers = [.never] ∧ s.tcnt = 7 ∧ ∀ j < 6, s.slotInRange (j + 1) = true) ∧
    (let s : State := { State.reset with host := [.strobe true 0], answers := [.never] }
     s.answers = [.never] ∧ s.cfg.ok = true ∧ s.busy = false ∧
      s.host = .strobe true 0 :: []) := by decide

/-- One answer list for each clause. -/
theorem test_witness_CollaboratorAnswersAreUsed :
    State.reset.answers = [] ∧
    ((ready "$FE*AF" (.returned good)).answers = [.returned good] ∧ CtlOp.enable.returnsText = false) ∧
    (ready "$FE*AF" .never).answers = [.never] ∧
    (ready "$FR*BC" (.resets [])).answers = [.resets []] ∧ CtlOp.enable ≠ .reset := by decide

theorem test_witness_SentinelTextIsRefused :
    let r : Reply := { good with text := [0x24#8] }
    let s := ready "$GT*BF" (.returned r)
    s.tcnt = 1 ∧ s.answers = [.returned r] ∧ r.status = 0#8 ∧ s.cfg.holdsSentinel r.text = true := by
  decide

theorem test_witness_CommandsFrame :
    Instr.fr.isCommand = true ∧ (∃ t, exec .fr (ready "$FR*BC" (.returned good)) = .next t) ∧
    (Instr.fr = .fr → ∀ lost, (ready "$FR*BC" (.returned good)).answerTo .reset ≠ .resets lost) :=
  ⟨rfl, ⟨_, rfl⟩, fun _ _ h => Ending.noConfusion h⟩

theorem test_witness_AtMostOneTransactionPerStep :
    ∃ t, step (ready "$FE*AF" (.returned good)) = .next t := ⟨_, rfl⟩

theorem test_witness_PayloadOnlyFromQueries :
    Instr.gt.isCommand = true ∧ (ready "$GT*BF" (.returned good)).pflag = false ∧
    ∃ t, exec .gt (ready "$GT*BF" (.returned good)) = .next t ∧ t.pflag = true :=
  ⟨rfl, rfl, _, rfl, rfl⟩

/-- Both alternatives of the conclusion occur. -/
theorem test_witness_EchoChangesOnlyBySwitchOrReset :
    (∃ t, step (ready "$SE 1*0D" .never) = .next t ∧ t.echo ≠ (ready "$SE 1*0D" .never).echo) ∧
    (let s : State := { State.reset with echo := true, host := [.reset []] }
     ∃ t, step s = .next t ∧ t.echo ≠ s.echo) :=
  ⟨⟨_, rfl, by decide⟩, ⟨_, rfl, by decide⟩⟩

theorem test_witness_TransmissionNeverWithdrawn :
    ∃ t, step { inFrame "$FE*AF" with phase := .respond .ok } = .next t := ⟨_, rfl⟩

theorem test_witness_ParametersNeverChange : ∃ t, step State.reset = .next t := ⟨_, rfl⟩

theorem test_witness_DispatchLeadsToResponse :
    let s := ready "$FE*AF" (.returned good)
    s.host = [] ∧ s.busy = true ∧ s.phase = .dispatch ∧ ∃ t, step s = .next t :=
  ⟨rfl, rfl, rfl, _, rfl⟩

/-- A frame about to be dispatched meets the invariant. -/
theorem test_ready_inv : (ready "$FB 7*03" (.returned good)).Inv where
  memWf := by decide
  memBound := by decide
  idleEmpty := by decide
  liveStart := by decide
  liveBody := fun _ i h1 h2 => by
    have h2 : i < 8 := h2
    interval_cases i <;> decide
  slotCount := by decide
  slotRange := by decide
  scanRange := by decide
  countBound := by decide
  rbSize := by decide
  rlenBound := by decide
  batch := by decide
  completing := by decide
  dispatchedValid := by decide
  dispatchedStart := by decide
  dispatchedTokens := fun _ => ⟨by decide, by decide, fun k hk _ => by
    have hk : k < 2 := hk
    interval_cases k <;> decide⟩

theorem test_witness_InvariantKeptByEveryStep :
    (ready "$FB 7*03" (.returned good)).Inv ∧
    ∃ t, step (ready "$FB 7*03" (.returned good)) = .next t := ⟨test_ready_inv, _, rfl⟩

theorem test_witness_InvariantStatesStopSafely :
    (ready "$FB 7*03" (.returned good)).cfg.ok = true ∧ (ready "$FB 7*03" (.returned good)).Inv :=
  ⟨by decide, test_ready_inv⟩

/-- A memory that differs from the frame's at index 8, the first past `LEN`. -/
theorem test_witness_StaleBytesNeverMatter :
    let s := ready "$FB 7*03" (.returned good)
    let m := Memory.write s.fb 8 0x58#8
    s.Inv ∧ Memory.wf m ∧ (∀ i, i < s.len → Memory.read m i = s.fbByte i) ∧
      (∃ t, step s = .next t) ∧ Memory.read m 8 ≠ s.fbByte 8 := by
  refine ⟨test_ready_inv, by decide, fun i hi => ?_, ⟨_, rfl⟩, by decide⟩
  have hi : i < 8 := hi
  interval_cases i <;> decide

/-- Each byte class and a command of every family. -/
theorem test_witness_DecodeOfEncode :
    Params.default.ok = true ∧
    [Instr.rxSoc, .rxEoc, .rxData 0x00#8, .rxData 0xFF#8, .fe, .sc, .gv].all
      (Instr.wellFormed .default true) = true ∧
    Instr.wellFormed .default false (.rxIdle 0x0D#8) = true := by decide

theorem test_witness_DecodeOnlyEncodings :
    decode .default true [0x46#8, 0x45#8] = .instr .fe ∧
    decode .default false [0x0D#8] = .instr (.rxIdle 0x0D#8) := by decide

end Tests
end Sys2Proof
end

section
/-! PROOFS. Family 00_scope.md: safe stops from invariant states (O56), the tokens of a body (O23) and
what the host list lets the engine do (O9). -/

namespace Sys2Proof
namespace Machine

/-! ### The host list (log entry 9) -/

/-- A well-formed build takes the host's step. -/
theorem step_eq_hostStep {s : State} (h : s.cfg.ok = true) : step s = s.hostStep := if_pos h

theorem State.hostStep_nil {s : State} (h : s.host = []) : s.hostStep = s.engineStep := by
  simp only [State.hostStep, h]

theorem State.hostStep_run {s : State} {rest : List HostAction} (h : s.host = .run :: rest) :
    s.hostStep = ({ s with host := rest } : State).engineStep := by
  simp only [State.hostStep, h]

theorem State.hostStep_await {s : State} {rest : List HostAction} (h : s.host = .await :: rest) :
    s.hostStep = if s.busy then s.engineStep else .next { s with host := rest } := by
  simp only [State.hostStep, h]

theorem State.hostStep_deliver {s : State} {c : Byte} {rest : List HostAction}
    (h : s.host = .deliver c :: rest) :
    s.hostStep = .next { s with host := rest, rx := s.rx ++ [c] } := by
  simp only [State.hostStep, h]

theorem State.hostStep_strobe {s : State} {notifyEn : Bool} {hidden : Nat} {rest : List HostAction}
    (h : s.host = .strobe notifyEn hidden :: rest) :
    s.hostStep = ({ s with host := rest } : State).startCycle notifyEn hidden := by
  simp only [State.hostStep, h]

theorem State.hostStep_reset {s : State} {lost : List Bool} {rest : List HostAction}
    (h : s.host = .reset lost :: rest) :
    s.hostStep = .next (({ s with host := rest } : State).systemReset lost) := by
  simp only [State.hostStep, h]

theorem State.hostStep_resetDuring {s : State} {sent : Nat} {lost : List Bool}
    {rest : List HostAction} (h : s.host = .resetDuring sent lost :: rest) :
    s.hostStep =
      cutShort s.tx.length sent lost ({ s with host := rest } : State).engineStep := by
  simp only [State.hostStep, h]

theorem State.hostStep_strobeReset {s : State} {notifyEn : Bool} {sent : Nat} {lost : List Bool}
    {rest : List HostAction} (h : s.host = .strobeReset notifyEn sent lost :: rest) :
    s.hostStep =
      cutShort s.tx.length sent lost (({ s with host := rest } : State).startCycle notifyEn 0) := by
  simp only [State.hostStep, h]

/-- Settles O9: each clause is the host step's equation for the list's first action. -/
theorem hostListMovesEngine : Obligations.HostListMovesEngine := by
  intro s hok
  rw [step_eq_hostStep hok]
  refine ⟨State.hostStep_nil, fun _ => State.hostStep_run, fun rest h hb => ?_, fun rest h hb => ?_,
    fun _ _ => State.hostStep_deliver⟩
  · rw [State.hostStep_await h, if_pos hb]
  · rw [State.hostStep_await h, if_neg (by simp [hb])]

/-! ### The stored tokens, joined (R133, R137) -/

/-- Between two stored tokens stands one space. -/
theorem State.tokenize_next_token (s : State) (h : 2 ≤ s.len)
    (hs : s.slots.length = s.cfg.maxTokens) {k : Nat} (hk : k + 1 < s.tokenize.tcnt)
    (hm : k + 1 < s.cfg.maxTokens) :
    s.fbByte (s.tokenize.slot k).te = sp ∧
      (s.tokenize.slot (k + 1)).ts = (s.tokenize.slot k).te + 1 := by
  obtain ⟨-, -, -, -, -, hnext, -⟩ := s.tokenize_tokens h hs k (by omega) (by omega)
  obtain ⟨hsp, -, hts⟩ := hnext hk
  exact ⟨hsp, hts hm⟩

/-- The stored tokens `k` to `k + d`, joined by spaces, are the frame from the first one's start to the
last one's end. -/
theorem State.tokenize_join (s : State) (h : 2 ≤ s.len) (hs : s.slots.length = s.cfg.maxTokens)
    (d k : Nat) (hk : k + d < s.tokenize.tcnt) (hm : k + d < s.cfg.maxTokens) :
    (s.tokenize.slot k).ts ≤ (s.tokenize.slot (k + d)).te ∧
      List.intercalate [sp] ((List.range' k (d + 1)).map s.tokenize.arg) =
        s.slice (s.tokenize.slot k).ts (s.tokenize.slot (k + d)).te := by
  induction d generalizing k with
  | zero =>
    obtain ⟨-, hle, -⟩ := s.tokenize_tokens h hs k hk hm
    exact ⟨hle, List.append_nil _⟩
  | succ d ih =>
    obtain ⟨-, hle, -⟩ := s.tokenize_tokens h hs k (by omega) (by omega)
    obtain ⟨hsp, hts⟩ := s.tokenize_next_token h hs (k := k) (by omega) (by omega)
    obtain ⟨hrest, hjoin⟩ := ih (k + 1) (by omega) (by omega)
    rw [show k + 1 + d = k + (d + 1) by omega, hts] at hrest hjoin
    refine ⟨by omega, ?_⟩
    calc List.intercalate [sp] ((List.range' k (d + 1 + 1)).map s.tokenize.arg)
      _ = s.tokenize.arg k ++ [sp] ++
          List.intercalate [sp] ((List.range' (k + 1) (d + 1)).map s.tokenize.arg) := by
        simp only [List.range'_succ, List.map_cons, List.intercalate_cons_cons]
      _ = s.slice (s.tokenize.slot k).ts (s.tokenize.slot k).te ++
          s.slice (s.tokenize.slot k).te (s.tokenize.slot (k + (d + 1))).te := by
        rw [hjoin, s.slice_cons hrest, hsp, List.append_assoc]
        rfl
      _ = s.slice (s.tokenize.slot k).ts (s.tokenize.slot (k + (d + 1))).te :=
        s.slice_append hle (by omega)

/-- Settles O23: `tokenize_join` over all stored tokens, and `tokenize_tokens` of the last of them. -/
theorem tokensSplitBody : Obligations.TokensSplitBody := by
  intro s hs hmax h
  dsimp only
  have hcount : 1 ≤ s.tokenize.tcnt := by
    rw [(s.tokenize_scan h).2.2.2.2]
    exact ((s.scan_run h).slots (s.scanStart_slots hs)).count
  obtain ⟨n, hn⟩ : ∃ n, min s.tokenize.tcnt s.cfg.maxTokens = n + 1 :=
    Nat.exists_eq_add_one.mpr (by omega)
  rw [hn, Nat.add_sub_cancel]
  obtain ⟨-, -, -, -, hend, hmore, -⟩ := s.tokenize_tokens h hs n (by omega) (by omega)
  refine ⟨?_, fun hle => hend (by omega), fun hlt => ?_, fun k hk => ?_⟩
  · obtain ⟨-, -, hstart, -⟩ := s.tokenize_tokens h hs 0 (by omega) (by omega)
    obtain ⟨-, hjoin⟩ := s.tokenize_join h hs n 0 (by omega) (by omega)
    rwa [hstart rfl, Nat.zero_add, ← List.range_eq_range'] at hjoin
  · obtain ⟨hsp, hbefore, -⟩ := hmore (by omega)
    exact ⟨hbefore, hsp⟩
  · obtain ⟨-, -, -, -, -, -, hfree⟩ := s.tokenize_tokens h hs k (by omega) (by omega)
    exact hfree

/-! ### Safe stops: the shared operations -/

/-- A collaborator that breaks its contract does so in one of two ways (D26, R286). -/
theorem State.answerTo_broken {s : State} {op : CtlOp} {why : Refusal}
    (h : s.answerTo op = .broken why) : why = .textHoldsSentinel ∨ why = .resetNotByReset := by
  unfold State.answerTo at h
  split at h
  · split at h <;> cases h
  · split at h <;> cases h
    exact .inl rfl
  · cases h
  · split at h <;> cases h
    exact .inr rfl

/-- A transaction stops safely where what follows its return does. -/
theorem safe_transact {s : State} {op : CtlOp} {k : Reply → State → Result}
    (hk : ∀ r, Safe (k r (s.called op))) : Safe (s.transact op k) := by
  unfold State.transact
  split
  · exact hk _
  · rfl
  · trivial
  · exact .inr (State.answerTo_broken ‹_›)

theorem safe_command (s : State) (op : CtlOp) : Safe (s.command op) :=
  safe_transact fun _ => trivial

theorem safe_query (s : State) (op : CtlOp) (payload : Reply → List Byte) :
    Safe (s.query op payload) := safe_transact fun _ => trivial

theorem safe_storeFb {s : State} {i : Nat} (v : Byte) (h : i < s.cfg.bufLen) :
    Safe (s.storeFb i v) := by
  rw [State.storeFb_eq v h]
  trivial

theorem safe_cutShort {before sent : Nat} {lost : List Bool} {r : Result} (h : Safe r) :
    Safe (cutShort before sent lost r) := by
  cases r with
  | next _ => trivial
  | fault _ => exact h
  | refused _ => exact h

/-- Where every operand a command can read lies inside the frame buffer: the seven slots of a build's
least token file (R7, R27) and the scan's end (R28). -/
structure State.OperandsInRange (s : State) : Prop where
  slots : ∀ k < 7, s.slotInRange k = true
  scanEnd : s.scanEnd ≤ s.cfg.bufLen

/-- A command stops safely where its handler does; no handler reads past token 6 (R82). -/
theorem safe_handle {s : State} {arity : Arity} {reads : Nat} {f : State → Result}
    (h : s.OperandsInRange) (hr : reads ≤ 6) (hf : Safe (f s)) : Safe (s.handle arity reads f) := by
  by_cases ha : arity.meets s.tcnt = true
  · rwa [State.handle_eq f ha fun j hj => h.slots (j + 1) (by omega)]
  · rw [State.handle, if_neg ha]
    trivial

/-! ### Safe stops: the instructions -/

theorem safe_exec_command {i : Instr} {s : State} (hi : i.isCommand = true)
    (h : s.OperandsInRange) : Safe (exec i s) := by
  cases i
  case rxSoc | rxEoc | rxData | rxIdle => cases hi
  all_goals
    simp only [exec, execFb, execFd, execFe, execFp, execFr, execFs, execS1, execSc, execSd, execSe,
      execSg, execSl, execSr, execSs, execSt, execSv, execGc, execGe, execGs, execGt, execGv]
  case gc | gs | ge | gt | gv => exact safe_handle h (by decide) (safe_query _ _ _)
  case se => exact safe_handle h (by decide) trivial
  case fp =>
    refine safe_handle h (by decide) ?_
    rw [if_pos h.scanEnd]
    exact safe_command _ _
  case sl =>
    refine safe_handle h (by decide) ?_
    split_ifs
    · exact safe_command _ _
    · exact safe_command _ _
    · exact safe_command _ _
    · trivial
  case st =>
    refine safe_handle h (by decide) ?_
    split_ifs <;> exact safe_command _ _
  all_goals exact safe_handle h (by decide) (safe_command _ _)

theorem safe_exec_byte {i : Instr} {s : State} (hi : i.isCommand = false)
    (h : 0 < s.cfg.bufLen) : Safe (exec i s) := by
  cases i
  case rxSoc => exact safe_storeFb _ h
  case rxEoc =>
    simp only [exec, execRxEoc]
    split <;> trivial
  case rxData c =>
    simp only [exec, execRxData]
    split
    · exact safe_storeFb _ ‹_›
    · trivial
  case rxIdle c => trivial
  all_goals cases hi

/-! ### Safe stops: the engine and the machine -/

/-- A well-formed build has room for a start byte and a terminator, and slots for seven tokens (R7). -/
theorem Params.ok_sizes {P : Params} (h : P.ok = true) : 2 ≤ P.bufLen ∧ 7 ≤ P.maxTokens := by
  simp only [Params.ok, Bool.and_eq_true, decide_eq_true_eq] at h
  obtain ⟨⟨⟨⟨⟨_, hbuf⟩, htok⟩, _⟩, _⟩, _⟩ := h
  exact ⟨hbuf, htok⟩

/-- The invariant does not speak of the host's list. -/
theorem State.Inv.withHost {s : State} (h : s.Inv) (rest : List HostAction) :
    ({ s with host := rest } : State).Inv := { h with }

theorem State.Inv.operandsInRange {s : State} (h : s.Inv) (hok : s.cfg.ok = true) :
    s.OperandsInRange := by
  refine ⟨fun k hk => ?_, h.scanRange⟩
  have hlen : k < s.slots.length := by
    have := (Params.ok_sizes hok).2
    have := h.slotCount
    omega
  obtain ⟨hts, hte⟩ := h.slotRange s.slots[k] (List.getElem_mem hlen)
  simp [State.slotInRange, State.slot, hlen, hts, hte]

/-- In a frame about to be dispatched, a token 0 with two bytes has both inside the frame (R161). -/
theorem State.Inv.bufLen_of_hasSubLetter {s : State} (h : s.Inv) (hok : s.cfg.ok = true)
    (hp : s.phase = .dispatch) (hsub : s.hasSubLetter = true) : 2 < s.cfg.bufLen := by
  obtain ⟨-, -, hroom⟩ := h.completing (by simp [hp])
  obtain ⟨hend, hcount, htokens⟩ := h.dispatchedTokens hp
  obtain ⟨hts, -, hte⟩ := htokens 0 hcount (by have := (Params.ok_sizes hok).2; omega)
  have : 2 ≤ (s.slot 0).te - (s.slot 0).ts := of_decide_eq_true hsub
  omega

theorem safe_receiveStep {s : State} (hok : s.cfg.ok = true) (h : s.Inv) :
    Safe s.receiveStep := by
  unfold State.receiveStep
  split
  · trivial
  · rename_i n hl hr
    have := h.batch
    simp [hl, hr] at this
  · refine safe_exec_byte (decodeByte_isByte _ _ _) ?_
    have := (Params.ok_sizes hok).1
    simp only [State.mirror_cfg]
    omega

theorem safe_dispatchStep {s : State} (hok : s.cfg.ok = true) (h : s.Inv)
    (hp : s.phase = .dispatch) : Safe s.dispatchStep := by
  have hroom : ¬ (s.hasSubLetter && decide (s.cfg.bufLen ≤ 2)) = true := fun hc => by
    obtain ⟨hsub, hle⟩ := Bool.and_eq_true_iff.mp hc
    exact absurd (of_decide_eq_true hle) (Nat.not_le.mpr (h.bufLen_of_hasSubLetter hok hp hsub))
  obtain ⟨hslots, hscan⟩ := h.operandsInRange hok
  rw [State.dispatchStep, if_neg hroom]
  split
  · exact safe_exec_command (decodeCommand_isCommand ‹_›) ⟨hslots, hscan⟩
  · trivial

theorem safe_engineStep {s : State} (hok : s.cfg.ok = true) (h : s.Inv) :
    Safe s.engineStep := by
  unfold State.engineStep
  split
  · split
    · exact safe_receiveStep hok h
    · exact safe_dispatchStep hok h ‹_›
    · trivial
  · trivial

theorem safe_startCycle (s : State) (notifyEn : Bool) (hidden : Nat) :
    Safe (s.startCycle notifyEn hidden) := by
  unfold State.startCycle
  split_ifs
  · exact .inl rfl
  · exact safe_transact fun _ => trivial
  · trivial

/-- Settles O56, by the host's next action: each leads to an engine step, a cycle's start, or a next
state. -/
theorem invariantStatesStopSafely : Obligations.InvariantStatesStopSafely := by
  intro s hok h
  rw [step_eq_hostStep hok]
  match hh : s.host with
  | [] =>
    rw [State.hostStep_nil hh]
    exact safe_engineStep hok h
  | .run :: rest =>
    rw [State.hostStep_run hh]
    exact safe_engineStep hok (h.withHost rest)
  | .await :: rest =>
    rw [State.hostStep_await hh]
    split
    · exact safe_engineStep hok h
    · trivial
  | .deliver c :: rest =>
    rw [State.hostStep_deliver hh]
    trivial
  | .strobe notifyEn hidden :: rest =>
    rw [State.hostStep_strobe hh]
    exact safe_startCycle _ _ _
  | .reset lost :: rest =>
    rw [State.hostStep_reset hh]
    trivial
  | .resetDuring sent lost :: rest =>
    rw [State.hostStep_resetDuring hh]
    exact safe_cutShort (safe_engineStep hok (h.withHost rest))
  | .strobeReset notifyEn sent lost :: rest =>
    rw [State.hostStep_strobeReset hh]
    exact safe_cutShort (safe_startCycle _ _ _)

end Machine
end Sys2Proof
end

section
/-! PROOFS. Family 10_state.md: the invariant of every step (O54). -/

namespace Sys2Proof
namespace Machine

/-! ### What the tokenizer bounds (R8, R28) -/

theorem State.tokenize_scanEnd_le {s : State} (h : 1 ≤ s.len) : s.tokenize.scanEnd ≤ s.len := by
  by_cases h2 : 2 ≤ s.len
  · rw [(s.tokenize_scan h2).1]
    exact (s.scan_run h2).spec.2.1
  · rwa [(s.tokenize_short h2).1]

/-- There is a token, and every further one takes a space of the frame (R131, R138). -/
theorem State.tokenize_tcnt_bounds (s : State) :
    1 ≤ s.tokenize.tcnt ∧ s.tokenize.tcnt ≤ max 1 (s.len - 1) := by
  by_cases h2 : 2 ≤ s.len
  · obtain ⟨-, -, -, -, htcnt⟩ := s.tokenize_scan h2
    obtain ⟨-, hend, -, -, hcount, -⟩ := (s.scan_run h2).spec
    have hle := List.count_le_length (a := sp) (l := s.slice s.scanStart.i s.scan.i)
    simp only [State.slice, List.length_map, List.length_range] at hle
    simp only [State.slice, State.scanStart] at hcount hle
    omega
  · obtain ⟨-, -, -, -, htcnt, -⟩ := s.tokenize_short h2
    omega

/-- The stored tokens of every frame, with a body or without, lie inside its scanned part, and
token 0 begins at index 1 (R131, R133, R137). -/
theorem State.tokenize_slot_bounds {s : State} (hs : s.slots.length = s.cfg.maxTokens) {k : Nat}
    (hk : k < s.tokenize.tcnt) (hm : k < s.cfg.maxTokens) :
    1 ≤ (s.tokenize.slot k).ts ∧ (s.tokenize.slot k).ts ≤ (s.tokenize.slot k).te ∧
      (s.tokenize.slot k).te ≤ s.tokenize.scanEnd ∧ (k = 0 → (s.tokenize.slot k).ts = 1) := by
  by_cases h2 : 2 ≤ s.len
  · obtain ⟨hts, hle, hstart, hend, -⟩ := s.tokenize_tokens h2 hs k hk hm
    exact ⟨hts, hle, hend, hstart⟩
  · obtain ⟨hscan, -, -, -, htcnt, hslots⟩ := s.tokenize_short h2
    obtain rfl : k = 0 := by omega
    have hslot : s.tokenize.slot 0 = ⟨1, 1⟩ := by
      simp only [State.slot, hslots]
      rw [getD_setTe _ _ _ _ _ (by simpa using hs), if_pos ⟨rfl, hm⟩, getD_setTs _ _ _ _ _ hs,
        if_pos ⟨rfl, hm⟩]
    rw [hslot, hscan]
    exact ⟨le_rfl, le_rfl, le_rfl, fun _ => rfl⟩

/-! ### The invariant under each update -/

theorem State.resetOf_inv (P : Params) : (State.resetOf P).Inv where
  memWf := Memory.wf_nil
  memBound := nofun
  idleEmpty _ := rfl
  liveStart := nofun
  liveBody := nofun
  slotCount := List.length_replicate
  slotRange x hx := by simp [List.eq_of_mem_replicate hx]
  scanRange := Nat.zero_le _
  countBound := Nat.zero_le _
  rbSize := List.length_replicate
  rlenBound := Nat.zero_le _
  batch := Nat.zero_le _
  completing h := absurd rfl h
  dispatchedValid := nofun
  dispatchedStart := nofun
  dispatchedTokens := nofun

/-- A system reset leads to the invariant from any state. -/
theorem State.systemReset_inv (s : State) (lost : List Bool) : (s.systemReset lost).Inv :=
  { State.resetOf_inv s.cfg with batch := Nat.zero_le _ }

theorem State.Inv.mirror {s : State} (h : s.Inv) (c : Byte) : (s.mirror c).Inv := by
  unfold State.mirror
  split
  · exact { h with }
  · exact h

theorem State.Inv.notify {s : State} (h : s.Inv) (r : Reply) : (s.notify r).Inv := by
  unfold State.notify
  split
  · exact { h with }
  · exact h

theorem State.Inv.called {s : State} (h : s.Inv) (op : CtlOp) : (s.called op).Inv := { h with }

theorem State.Inv.clearPayload {s : State} (h : s.Inv) : s.clearPayload.Inv :=
  { h with rlenBound := Nat.zero_le _ }

theorem State.Inv.setPayload {s : State} (h : s.Inv) (p : List Byte) : (s.setPayload p).Inv :=
  { h with
    rbSize := by
      have := h.rbSize
      simp only [State.setPayload, List.length_append, List.length_take, List.length_drop]
      omega
    rlenBound := Nat.min_le_right _ _ }

/-- The end of a handler leaves the frame in place for its response (R110, R165). -/
theorem State.Inv.concluded {s : State} (h : s.Inv) (hp : s.phase ≠ .receive) (status : BitVec 8)
    (cls : FrameClass) : (s.concluded status cls).Inv :=
  { h with
    completing := fun _ => h.completing hp
    dispatchedValid := nofun
    dispatchedStart := nofun
    dispatchedTokens := nofun }

/-- The end of a frame, with the engine back at receiving (R111). -/
theorem State.Inv.frameEnded {s : State} (h : s.Inv) {p : Phase} (hp : p = .receive) :
    ({ s.frameReset with phase := p } : State).Inv := by
  subst hp
  exact { h with
    idleEmpty := fun _ => rfl
    liveStart := nofun
    liveBody := nofun
    completing := fun hn => absurd rfl hn
    dispatchedValid := nofun
    dispatchedStart := nofun
    dispatchedTokens := nofun }

/-- The start of a batch samples no more bytes than there are (R102). -/
theorem State.Inv.beginBatch {s : State} (h : s.Inv) (hidden : Nat) : (s.beginBatch hidden).Inv :=
  { h with
    batch := Nat.sub_le _ _
    completing := fun hn => absurd rfl hn
    dispatchedValid := nofun
    dispatchedStart := nofun
    dispatchedTokens := nofun }

/-- Every cell of a memory written inside the buffer lies inside it (R55). -/
theorem Memory.forall_mem_write_lt {m : List Host.Cell} {a b : Nat} (v : Byte) (ha : a < b)
    (h : ∀ c ∈ m, c.1 < b) : ∀ c ∈ Memory.write m a v, c.1 < b := by
  intro c hc
  rcases Memory.mem_write m a v c hc with ⟨rfl, -⟩ | hc
  · exact ha
  · exact h c hc

/-- A start byte begins a frame of one byte (R104). -/
theorem State.Inv.frameStarted {s : State} (h : s.Inv) (hp : s.phase = .receive)
    (hroom : 0 < s.cfg.bufLen) :
    ({ s with fb := Memory.write s.fb 0 s.cfg.soc, len := 1, acc := true } : State).Inv :=
  { h with
    memWf := Memory.wf_write _ h.memWf _ _
    memBound := Memory.forall_mem_write_lt _ hroom h.memBound
    idleEmpty := nofun
    liveStart := fun _ => ⟨le_rfl, hroom, Memory.read_write_same _ h.memWf _ _⟩
    liveBody := fun _ i hi hlt => absurd hlt (Nat.not_lt.mpr hi)
    completing := fun hn => absurd hp hn
    dispatchedTokens := fun hd => by cases hp.symm.trans hd }

/-- A data byte extends a frame by a byte that is no sentinel (R107). -/
theorem State.Inv.appended {s : State} (h : s.Inv) (hp : s.phase = .receive) (hacc : s.acc = true)
    (hroom : s.len < s.cfg.bufLen) {c : Byte} (hc : s.cfg.isSentinel c = false) :
    ({ s with fb := Memory.write s.fb s.len c, len := s.len + 1 } : State).Inv := by
  obtain ⟨hlen, -, hsoc⟩ := h.liveStart hacc
  exact { h with
    memWf := Memory.wf_write _ h.memWf _ _
    memBound := Memory.forall_mem_write_lt _ hroom h.memBound
    idleEmpty := fun hidle => by cases hacc.symm.trans hidle
    liveStart := fun _ => ⟨Nat.le_add_left _ _, hroom,
      (Memory.read_write_other _ _ _ _ (by omega)).trans hsoc⟩
    liveBody := fun _ i hi hlt => by
      rcases Nat.lt_succ_iff_lt_or_eq.mp hlt with hlt | rfl
      · exact (congrArg _ (Memory.read_write_other _ _ _ _ hlt.ne)).trans (h.liveBody hacc i hi hlt)
      · exact (congrArg _ (Memory.read_write_same _ h.memWf _ _)).trans hc
    completing := fun hn => absurd hp hn
    dispatchedTokens := fun hd => by cases hp.symm.trans hd }

/-- `Tokenize()` keeps the bounds of the registers it writes (R8, R27, R28). -/
theorem State.Inv.tokenized {s : State} (h : s.Inv) (hp : s.phase = .receive) (hlen : 1 ≤ s.len)
    (hroom : s.len < s.cfg.bufLen) : s.tokenize.Inv :=
  { h with
    slotCount := s.length_tokenize_slots.trans h.slotCount
    slotRange := s.tokenize_slots_bound hroom.le (by omega) h.slotRange
    scanRange := (State.tokenize_scanEnd_le hlen).trans hroom.le
    countBound := by
      have hle := s.tokenize_tcnt_bounds.2
      simp only [State.tokenize_cfg]
      omega
    completing := fun hn => absurd hp hn
    dispatchedValid := fun hd => by cases hp.symm.trans hd
    dispatchedStart := fun hd => by cases hp.symm.trans hd
    dispatchedTokens := fun hd => by cases hp.symm.trans hd }

/-- A frame whose checksum holds is ready for its dispatch (R105, R110, R136). -/
theorem State.Inv.completed {s : State} (h : s.Inv) (hok : s.cfg.ok = true) (hb : s.busy = true)
    (hp : s.phase = .receive) (hacc : s.acc = true) (hroom : s.len < s.cfg.bufLen)
    (hv : s.tokenize.valid = true) : ({ s.tokenize with phase := .dispatch } : State).Inv := by
  obtain ⟨hlen, -⟩ := h.liveStart hacc
  have hcount := s.tokenize_tcnt_bounds.1
  have htok : 0 < s.cfg.maxTokens := by have := (Params.ok_sizes hok).2; omega
  obtain ⟨-, -, -, hstart⟩ := State.tokenize_slot_bounds h.slotCount hcount htok
  exact { h.tokenized hp hlen hroom with
    completing := fun _ => ⟨hb, hacc, hroom⟩
    dispatchedValid := fun _ => hv
    dispatchedStart := fun _ => hstart rfl
    dispatchedTokens := fun _ => ⟨State.tokenize_scanEnd_le hlen, hcount, fun k hk hm => by
      obtain ⟨hts, hle, hend, -⟩ := State.tokenize_slot_bounds h.slotCount hk hm
      exact ⟨hts, hle, hend⟩⟩ }

/-! ### The invariant under every step -/

/-- An end byte is met only while a frame is collected (R70). -/
theorem decodeByte_rxEoc {P : Params} {acc : Bool} {c : Byte} (h : decodeByte P acc c = .rxEoc) :
    acc = true := by
  unfold decodeByte at h
  split_ifs at h
  assumption

/-- A data byte is met only while a frame is collected, and is no sentinel (R70). -/
theorem decodeByte_rxData {P : Params} {acc : Bool} {c d : Byte}
    (h : decodeByte P acc c = .rxData d) : acc = true ∧ P.isSentinel d = false := by
  unfold decodeByte at h
  split_ifs at h with hsoc hacc heoc
  cases h
  exact ⟨hacc, by simp [Params.isSentinel, hsoc, heoc]⟩

/-- A byte class that R70 selects keeps the invariant. -/
theorem ByteEnd.inv {s t : State} {c : Byte} (h : s.Inv) (hok : s.cfg.ok = true)
    (hb : s.busy = true) (hp : s.phase = .receive) (he : ByteEnd s (decodeByte s.cfg s.acc c) t) :
    t.Inv := by
  generalize hi : decodeByte s.cfg s.acc c = i at he
  cases he with
  | start hroom => exact h.frameStarted hp hroom
  | append d hroom =>
    obtain ⟨hacc, hd⟩ := decodeByte_rxData hi
    exact h.appended hp hacc hroom hd
  | dataOverflow d _ => exact State.Inv.frameEnded (s := s.record .overflow) { h with } hp
  | endOverflow _ => exact State.Inv.frameEnded (s := s.record .overflow) { h with } hp
  | valid hroom hv => exact h.completed hok hb hp (decodeByte_rxEoc hi) hroom hv
  | invalid hroom _ =>
    have htok := h.tokenized hp (h.liveStart (decodeByte_rxEoc hi)).1 hroom
    have hend : ({ s.tokenize.frameReset with phase := s.phase } : State).Inv := htok.frameEnded hp
    exact { hend with }
  | idle _ => exact h

/-- A dispatched command keeps the invariant. -/
theorem CommandEnd.inv {i : Instr} {s t : State} (h : s.Inv) (hp : s.phase ≠ .receive)
    (he : CommandEnd i s t) : t.Inv := by
  cases he with
  | arity _ => exact h.concluded hp _ _
  | arg _ => exact h.concluded hp _ _
  | echo _ b => exact State.Inv.concluded (s := { s with echo := b }) { h with } hp _ _
  | returned _ op r _ => exact (h.called op).concluded hp _ _
  | payload _ op r _ _ p => exact ((h.called op).setPayload p).concluded hp _ _
  | reset _ lost _ => exact State.systemReset_inv _ _

theorem EngineEnd.inv {s t : State} (h : s.Inv) (hok : s.cfg.ok = true) (he : EngineEnd s t) :
    t.Inv := by
  cases he with
  | still _ => exact h
  | cycleEnd _ hp _ => exact { h with completing := fun hn => absurd hp hn }
  | received hb hp n c rx hl hr _ hbyte =>
    have hbatch : n ≤ rx.length := by
      have := h.batch
      simpa [hl, hr] using this
    have hread : ({ s with left := n, rx := rx } : State).Inv := { h with batch := hbatch }
    exact ByteEnd.inv (c := c) (hread.mirror c) (by simpa using hok) (by simpa using hb)
      (by simpa using hp) (by simpa using hbyte)
  | unrecognised _ hp _ _ => exact h.clearPayload.concluded (by simp [hp]) _ _
  | command _ hp i _ _ hcmd => exact hcmd.inv h.clearPayload (by simp [hp])
  | responded _ cls _ =>
    exact State.Inv.frameEnded (s := (s.emitResponse s.okBit).record cls) { h with } rfl

/-- Settles O54, by what the step was: a reset leads to the invariant from anywhere, and each other
update keeps it. -/
theorem invariantKeptByEveryStep : Obligations.InvariantKeptByEveryStep := by
  intro s t h hstep
  obtain ⟨hok, hend⟩ := step_next hstep
  cases hend with
  | engine host _ he => exact he.inv (h.withHost host) hok
  | awaited _ host => exact h.withHost host
  | delivered host c =>
    exact { h with batch := h.batch.trans (by simp) }
  | started _ host hidden =>
    exact State.Inv.beginBatch (s := { s with host := host, busy := true })
      { h with completing := fun hn => ⟨rfl, (h.completing hn).2⟩ } hidden
  | notified _ host hidden r _ =>
    have hbusy : ({ s with host := host, busy := true } : State).Inv :=
      { h with completing := fun hn => ⟨rfl, (h.completing hn).2⟩ }
    exact ((hbusy.called _).notify r).beginBatch hidden
  | reset | resetDuring | startReset | notifyReset => exact State.systemReset_inv _ _

end Machine
end Sys2Proof
end

section
/-! PROOFS. Family 10_state.md: stale frame-buffer bytes (O57). -/

namespace Sys2Proof
namespace Machine

/-! ### Two frame buffers that agree below LEN -/

/-- `s` with another frame buffer. -/
abbrev State.withFb (s : State) (m : List Host.Cell) : State := { s with fb := m }

/-- R38: the memory `m` holds the live bytes of `s`; its other bytes are free. -/
def State.LiveIn (s : State) (m : List Host.Cell) : Prop :=
  ∀ i < s.len, Memory.read m i = s.fbByte i

/-- Two results that stop alike, or go on to states that differ only in stale bytes. -/
inductive AlikeButStale : Result → Result → Prop where
  | next {t : State} {n : List Host.Cell} (h : t.LiveIn n) :
      AlikeButStale (.next t) (.next (t.withFb n))
  | fault (r : Fault) : AlikeButStale (.fault r) (.fault r)
  | refused (r : Refusal) : AlikeButStale (.refused r) (.refused r)

theorem AlikeButStale.refl : ∀ r : Result, AlikeButStale r r
  | .next t => .next (t := t) (n := t.fb) fun _ _ => rfl
  | .fault r => .fault r
  | .refused r => .refused r

/-- A test that no stale byte decides has the same outcome twice. -/
theorem alike_ite {c c' : Prop} [Decidable c] [Decidable c'] {a a' b b' : Result} (hc : c ↔ c')
    (hpos : c → AlikeButStale a a') (hneg : ¬ c → AlikeButStale b b') :
    AlikeButStale (if c then a else b) (if c' then a' else b') := by
  by_cases h : c
  · rw [if_pos h, if_pos (hc.mp h)]
    exact hpos h
  · rw [if_neg h, if_neg fun h' => h (hc.mpr h')]
    exact hneg h

theorem State.LiveIn.congr {s t : State} {m : List Host.Cell} (h : s.LiveIn m)
    (hlen : t.len = s.len) (hfb : t.fb = s.fb) : t.LiveIn m := by
  intro i hi
  rw [h i (hlen ▸ hi), State.fbByte, State.fbByte, hfb]

section Reads

variable {s : State} {m : List Host.Cell} (h : s.LiveIn m)
include h

theorem State.LiveIn.byteAt (j : Nat) : (s.withFb m).byteAt j = s.byteAt j := by
  unfold State.byteAt
  split
  · exact h j ‹_›
  · rfl

theorem State.LiveIn.slice (a : Nat) {b : Nat} (hb : b ≤ s.len) :
    (s.withFb m).slice a b = s.slice a b :=
  State.slice_congr fun j _ hj => h j (by omega)

theorem State.LiveIn.liveBytes : (s.withFb m).liveBytes = s.liveBytes := h.slice 0 le_rfl

theorem State.LiveIn.arg {k : Nat} (hk : (s.slot k).te ≤ s.len) :
    (s.withFb m).arg k = s.arg k := h.slice _ hk

theorem State.LiveIn.record (cls : FrameClass) :
    (s.withFb m).record cls = (s.record cls).withFb m := by
  simp only [State.record, h.liveBytes]

theorem State.LiveIn.systemReset (lost : List Bool) :
    (s.withFb m).systemReset lost = s.systemReset lost := by
  simp only [State.systemReset, h.liveBytes]

/-- The scan reads only below `LEN` (R130, R133). -/
theorem State.LiveIn.scanLoop (fuel : Nat) (t : Scan) :
    (s.withFb m).scanLoop fuel t = s.scanLoop fuel t := by
  induction fuel generalizing t with
  | zero => rfl
  | succ fuel ih =>
    by_cases hi : t.i < s.len
    · have hc : (s.withFb m).fbByte t.i = s.fbByte t.i := h t.i hi
      simp only [State.scanLoop, hc, h.byteAt, ih]
    · simp only [State.scanLoop, hi, false_and, if_false]

theorem State.LiveIn.tokenize : (s.withFb m).tokenize = s.tokenize.withFb m := by
  have hscan : (s.withFb m).scan = s.scan := by
    simp only [State.scan, State.scanStart, h.byteAt, h.scanLoop]
  simp only [State.tokenize, State.scanStop, hscan]

end Reads

theorem decArg_congr {s t : State} {k : Nat} (h : s.arg k = t.arg k) : s.decArg k = t.decArg k :=
  congrArg dtou h

theorem firstByte_congr {s t : State} {k : Nat} (h : s.arg k = t.arg k) :
    s.firstByte k = t.firstByte k := by
  rw [State.firstByte_eq, State.firstByte_eq, h]

/-! ### The shared operations -/

section Operations

variable {s : State} {m : List Host.Cell}

/-- A store makes its byte live: the two buffers need not have agreed on it. -/
theorem alike_storeFb {i : Nat} (v : Byte) (hs : Memory.wf s.fb) (hm : Memory.wf m)
    (h : ∀ j < s.len, j ≠ i → Memory.read m j = s.fbByte j) :
    AlikeButStale (s.storeFb i v) ((s.withFb m).storeFb i v) := by
  unfold State.storeFb
  split
  · refine .next (n := Memory.write m i v) fun j hj => ?_
    by_cases hji : j = i
    · subst hji
      exact (Memory.read_write_same m hm j v).trans (Memory.read_write_same s.fb hs j v).symm
    · exact (Memory.read_write_other m i j v hji).trans
        ((h j hj hji).trans (Memory.read_write_other s.fb i j v hji).symm)
  · exact .fault _

theorem alike_transact (h : s.LiveIn m) {op : CtlOp} {k : Reply → State → Result}
    (hk : ∀ r, AlikeButStale (k r (s.called op)) (k r ((s.called op).withFb m))) :
    AlikeButStale (s.transact op k) ((s.withFb m).transact op k) := by
  have hsame : (s.withFb m).answerTo op = s.answerTo op := rfl
  cases ha : s.answerTo op with rw [ha] at hsame
  | reply r =>
    rw [State.transact_reply k ha, State.transact_reply k hsame]
    exact hk r
  | hangs =>
    simp only [State.transact, ha, hsame]
    exact .fault _
  | resets lost =>
    have hcalled : (s.called op).LiveIn m := h
    rw [State.transact_resets k ha, State.transact_resets k hsame]
    exact hcalled.systemReset lost ▸ .refl (.next ((s.called op).systemReset lost))
  | broken why =>
    simp only [State.transact, ha, hsame]
    exact .refused why

theorem alike_command (h : s.LiveIn m) (op : CtlOp) :
    AlikeButStale (s.command op) ((s.withFb m).command op) :=
  alike_transact h fun _ => .next h

theorem alike_query (h : s.LiveIn m) (op : CtlOp) (payload : Reply → List Byte) :
    AlikeButStale (s.query op payload) ((s.withFb m).query op payload) := by
  refine alike_transact h fun r => ?_
  split
  · exact .next (t := ((s.called op).setPayload (payload r)).finished r.status) h
  · exact .next (t := (s.called op).finished r.status) h

theorem alike_cutShort {before sent : Nat} {lost : List Bool} {r r' : Result}
    (h : AlikeButStale r r') :
    AlikeButStale (cutShort before sent lost r) (cutShort before sent lost r') := by
  cases h with
  | @next t n h =>
    have hcut : (t.cutTx before sent).LiveIn n := h
    have hreset : ((t.withFb n).cutTx before sent).systemReset lost =
        (t.cutTx before sent).systemReset lost := hcut.systemReset lost
    simp only [cutShort, hreset]
    exact .refl _
  | fault r => exact .fault r
  | refused r => exact .refused r

/-- Where what a command reads of the frame lies below `LEN`: its tokens (R82 names no token past 6)
and the scanned part of the frame. -/
structure State.OperandsLive (s : State) : Prop where
  tokens : ∀ k < s.tcnt, k < 7 → (s.slot k).te ≤ s.len
  scanEnd : s.scanEnd ≤ s.len

theorem Arity.least_le_of_meets {a : Arity} {n : Nat} (h : a.meets n = true) : a.least ≤ n := by
  cases a with
  | exactly k => exact (beq_iff_eq.mp h).ge
  | atLeast k => exact of_decide_eq_true h

/-- A handler runs only where the tokens its arity asks for are there, so both runs read the same
arguments (R164). -/
theorem alike_handle (h : s.LiveIn m) (hops : s.OperandsLive) {arity : Arity} {reads : Nat}
    {f : State → Result} (hleast : arity.least ≤ 7)
    (hf : (∀ k < arity.least, (s.withFb m).arg k = s.arg k) →
      AlikeButStale (f s) (f (s.withFb m))) :
    AlikeButStale (s.handle arity reads f) ((s.withFb m).handle arity reads f) := by
  refine alike_ite Iff.rfl (fun ha => alike_ite Iff.rfl (fun _ => hf fun k hk => ?_)
    fun _ => .fault _) fun _ => .next h
  exact h.arg (hops.tokens k (hk.trans_le (Arity.least_le_of_meets ha)) (hk.trans_le hleast))

/-! ### The instructions -/

theorem alike_exec_command (h : s.LiveIn m) (hops : s.OperandsLive) {i : Instr}
    (hi : i.isCommand = true) : AlikeButStale (exec i s) (exec i (s.withFb m)) := by
  cases i
  case rxSoc | rxEoc | rxData | rxIdle => cases hi
  all_goals
    simp only [exec, execFb, execFd, execFe, execFp, execFr, execFs, execS1, execSc, execSd, execSe,
      execSg, execSl, execSr, execSs, execSt, execSv, execGc, execGe, execGs, execGt, execGv]
  case fd | fe | fr | fs => exact alike_handle h hops (by decide) fun _ => alike_command h _
  case gc | ge | gs | gt | gv => exact alike_handle h hops (by decide) fun _ => alike_query h _ _
  case fb | sc | sd | sg | sr | ss | sv =>
    refine alike_handle h hops (by decide) fun hargs => ?_
    rw [decArg_congr (hargs 1 (by decide))]
    exact alike_command h _
  case fp =>
    refine alike_handle h hops (by decide) fun hargs => ?_
    have htext : (s.withFb m).textFrom 3 = s.textFrom 3 := h.slice _ hops.scanEnd
    rw [decArg_congr (hargs 1 (by decide)), decArg_congr (hargs 2 (by decide)), htext]
    split
    · exact alike_command h _
    · exact .fault _
  case se =>
    refine alike_handle h hops (by decide) fun hargs => ?_
    rw [decArg_congr (hargs 1 (by decide))]
    exact .next (t := ({ s with echo := boolOf (s.decArg 1) } : State).finished 0#8) h
  case sl =>
    refine alike_handle h hops (by decide) fun hargs => ?_
    rw [firstByte_congr (hargs 1 (by decide))]
    split_ifs
    · exact alike_command h _
    · exact alike_command h _
    · exact alike_command h _
    · exact .next h
  case st =>
    refine alike_handle h hops (by decide) fun hargs => ?_
    rw [decArg_congr (hargs 1 (by decide)), decArg_congr (hargs 2 (by decide)),
      decArg_congr (hargs 3 (by decide)), decArg_congr (hargs 4 (by decide))]
    split_ifs <;> exact alike_command h _
  case s1 =>
    refine alike_handle h hops (by decide) fun hargs => ?_
    rw [decArg_congr (hargs 1 (by decide)), decArg_congr (hargs 2 (by decide)),
      decArg_congr (hargs 3 (by decide)), decArg_congr (hargs 4 (by decide)),
      decArg_congr (hargs 5 (by decide)), decArg_congr (hargs 6 (by decide))]
    exact alike_command h _

/-- A frame that ends leaves no live byte behind. -/
theorem alike_frameEnded {t : State} (ht : t.len = 0) (m : List Host.Cell) :
    AlikeButStale (.next t) (.next (t.withFb m)) := .next fun i hi => by omega

theorem alike_abandon (h : s.LiveIn m) (cause : FrameClass) :
    AlikeButStale (.next (s.abandon cause)) (.next ((s.withFb m).abandon cause)) := by
  have heq : (s.withFb m).abandon cause = (s.abandon cause).withFb m := by
    simp only [State.abandon, h.record, State.frameReset]
  exact heq ▸ alike_frameEnded rfl m

theorem alike_frameComplete (h : s.LiveIn m) :
    AlikeButStale (.next s.frameComplete) (.next (s.withFb m).frameComplete) := by
  have hlive : s.tokenize.LiveIn m := h
  by_cases hv : s.tokenize.valid = true
  · have hv' : (s.tokenize.withFb m).valid = true := hv
    have heq : (s.withFb m).frameComplete = s.frameComplete.withFb m := by
      simp only [State.frameComplete, h.tokenize, if_pos hv, if_pos hv']
    rw [heq]
    refine .next (hlive.congr ?_ ?_) <;> simp [State.frameComplete, hv]
  · have hv' : ¬ (s.tokenize.withFb m).valid = true := hv
    have heq : (s.withFb m).frameComplete = s.frameComplete.withFb m := by
      simp only [State.frameComplete, h.tokenize, if_neg hv, if_neg hv', hlive.record]
      rfl
    exact heq ▸ alike_frameEnded (by simp [State.frameComplete, hv]) m

theorem alike_exec_byte (h : s.LiveIn m) (hs : Memory.wf s.fb) (hm : Memory.wf m) {i : Instr}
    (hi : i.isCommand = false) : AlikeButStale (exec i s) (exec i (s.withFb m)) := by
  cases i
  case rxSoc =>
    exact alike_storeFb (s := { s with len := 1, acc := true }) _ hs hm
      fun j hj hne => absurd (Nat.lt_one_iff.mp hj) hne
  case rxEoc =>
    simp only [exec, execRxEoc]
    split
    · exact alike_frameComplete h
    · exact alike_abandon h _
  case rxData c =>
    simp only [exec, execRxData]
    split
    · exact alike_storeFb (s := { s with len := s.len + 1 }) c hs hm
        fun j hj hne => h j (lt_of_le_of_ne (Nat.lt_succ_iff.mp hj) hne)
    · exact alike_abandon h _
  case rxIdle c => exact .next h
  all_goals cases hi

/-! ### The engine and the machine -/

theorem State.Inv.operandsLive (hinv : s.Inv) (hok : s.cfg.ok = true) (hp : s.phase = .dispatch) :
    s.OperandsLive := by
  obtain ⟨hend, -, htokens⟩ := hinv.dispatchedTokens hp
  refine ⟨fun k hk hlt => ?_, hend⟩
  have hmax := (Params.ok_sizes hok).2
  obtain ⟨-, -, hte⟩ := htokens k hk (by omega)
  exact hte.trans hend

/-- The command word is read from live bytes: a sub-letter at index 2 lies inside token 0 (R161). -/
theorem State.LiveIn.cw (h : s.LiveIn m) (hinv : s.Inv) (hok : s.cfg.ok = true)
    (hp : s.phase = .dispatch) : (s.withFb m).cw = s.cw := by
  refine congrArg₂ commandWord (h.byteAt 1) (ite_congr rfl (fun hsub => h 2 ?_) fun _ => rfl)
  have hstart := hinv.dispatchedStart hp
  obtain ⟨-, hcount, -⟩ := hinv.dispatchedTokens hp
  have hte := (hinv.operandsLive hok hp).tokens 0 hcount (by decide)
  have htwo : 2 ≤ (s.slot 0).te - (s.slot 0).ts := of_decide_eq_true hsub
  omega

theorem alike_receiveStep (h : s.LiveIn m) (hs : Memory.wf s.fb) (hm : Memory.wf m) :
    AlikeButStale s.receiveStep (s.withFb m).receiveStep := by
  unfold State.receiveStep
  match hl : s.left, hr : s.rx with
  | 0, _ => exact .next h
  | _ + 1, [] => exact .refused _
  | n + 1, c :: rx =>
    have hmirror : ({ s.withFb m with left := n, rx := rx } : State).mirror c =
        (({ s with left := n, rx := rx } : State).mirror c).withFb m := by
      unfold State.mirror
      split <;> rfl
    simp only [hmirror]
    exact alike_exec_byte (h.congr (by simp) (by simp)) (by simpa using hs) hm
      (decodeByte_isByte _ _ _)

theorem alike_dispatchStep (h : s.LiveIn m) (hinv : s.Inv) (hok : s.cfg.ok = true)
    (hp : s.phase = .dispatch) : AlikeButStale s.dispatchStep (s.withFb m).dispatchStep := by
  have hlive : s.clearPayload.LiveIn m := h
  obtain ⟨htokens, hend⟩ := hinv.operandsLive hok hp
  refine alike_ite Iff.rfl (fun _ => .fault _) fun _ => ?_
  rw [h.cw hinv hok hp]
  dsimp only
  split
  · exact alike_exec_command hlive ⟨htokens, hend⟩ (decodeCommand_isCommand ‹_›)
  · exact .next hlive

theorem alike_respondStep (h : s.LiveIn m) (cls : FrameClass) :
    AlikeButStale (.next (s.respondStep cls)) (.next ((s.withFb m).respondStep cls)) := by
  have hsent : (s.emitResponse s.okBit).LiveIn m := h
  have heq : (s.withFb m).respondStep cls = (s.respondStep cls).withFb m := by
    have hrecord := hsent.record cls
    simp only [State.respondStep]
    exact congrArg (fun t : State => { t.frameReset with phase := .receive }) hrecord
  exact heq ▸ alike_frameEnded rfl m

theorem alike_engineStep (h : s.LiveIn m) (hm : Memory.wf m) (hinv : s.Inv)
    (hok : s.cfg.ok = true) : AlikeButStale s.engineStep (s.withFb m).engineStep := by
  unfold State.engineStep
  by_cases hb : s.busy = true
  · rw [if_pos hb, if_pos hb]
    cases hp : s.phase with
    | receive => exact alike_receiveStep h hinv.memWf hm
    | dispatch => exact alike_dispatchStep h hinv hok hp
    | respond cls => exact alike_respondStep h cls
  · rw [if_neg hb, if_neg hb]
    exact .next h

theorem alike_startCycle (h : s.LiveIn m) (notifyEn : Bool) (hidden : Nat) :
    AlikeButStale (s.startCycle notifyEn hidden) ((s.withFb m).startCycle notifyEn hidden) := by
  unfold State.startCycle
  split_ifs
  · exact .refused _
  · refine alike_transact (s := { s with busy := true }) h fun r => ?_
    unfold State.notify
    split
    · exact .next h
    · exact .next h
  · exact .next h

theorem alike_hostStep (h : s.LiveIn m) (hm : Memory.wf m) (hinv : s.Inv)
    (hok : s.cfg.ok = true) : AlikeButStale s.hostStep (s.withFb m).hostStep := by
  match hh : s.host with
  | [] =>
    rw [State.hostStep_nil hh, State.hostStep_nil (s := s.withFb m) hh]
    exact alike_engineStep h hm hinv hok
  | .run :: rest =>
    rw [State.hostStep_run hh, State.hostStep_run (s := s.withFb m) hh]
    exact alike_engineStep (s := { s with host := rest }) h hm (hinv.withHost rest) hok
  | .await :: rest =>
    rw [State.hostStep_await hh, State.hostStep_await (s := s.withFb m) hh]
    split
    · exact alike_engineStep h hm hinv hok
    · exact .next h
  | .deliver c :: rest =>
    rw [State.hostStep_deliver hh, State.hostStep_deliver (s := s.withFb m) hh]
    exact .next h
  | .strobe notifyEn hidden :: rest =>
    rw [State.hostStep_strobe hh, State.hostStep_strobe (s := s.withFb m) hh]
    exact alike_startCycle (s := { s with host := rest }) h _ _
  | .reset lost :: rest =>
    rw [State.hostStep_reset hh, State.hostStep_reset (s := s.withFb m) hh]
    have hlive : ({ s with host := rest } : State).LiveIn m := h
    exact hlive.systemReset lost ▸ .refl _
  | .resetDuring sent lost :: rest =>
    rw [State.hostStep_resetDuring hh, State.hostStep_resetDuring (s := s.withFb m) hh]
    exact alike_cutShort
      (alike_engineStep (s := { s with host := rest }) h hm (hinv.withHost rest) hok)
  | .strobeReset notifyEn sent lost :: rest =>
    rw [State.hostStep_strobeReset hh, State.hostStep_strobeReset (s := s.withFb m) hh]
    exact alike_cutShort (alike_startCycle (s := { s with host := rest }) h _ _)

theorem alike_step (h : s.LiveIn m) (hm : Memory.wf m) (hinv : s.Inv) :
    AlikeButStale (step s) (step (s.withFb m)) := by
  unfold step
  split
  · exact alike_hostStep h hm hinv ‹_›
  · exact .refused _

end Operations

/-- Settles O57: every read of the frame buffer is below `LEN`, so the two steps are alike. -/
theorem staleBytesNeverMatter : Obligations.StaleBytesNeverMatter := by
  intro s m hinv hm h
  have halike := alike_step h hm hinv
  generalize step (s.withFb m) = r at halike ⊢
  refine ⟨fun f hf => ?_, fun f hf => ?_, fun t ht => ?_⟩
  · rw [hf] at halike
    cases halike
    rfl
  · rw [hf] at halike
    cases halike
    rfl
  · rw [ht] at halike
    cases halike with
    | next hlive => exact ⟨_, rfl, hlive⟩

end Machine
end Sys2Proof
end

section
/-! PROOFS. Family 10_state.md: what changes ECHO (O50), and that the build is constant (O52). -/

namespace Sys2Proof
namespace Machine

/-! ### The build parameters (R34) -/

theorem ByteEnd.cfg_eq {s t : State} {i : Instr} (he : ByteEnd s i t) : t.cfg = s.cfg := by
  cases he <;> simp

theorem CommandEnd.cfg_eq {s t : State} {i : Instr} (he : CommandEnd i s t) : t.cfg = s.cfg := by
  cases he <;> simp

theorem EngineEnd.cfg_eq {s t : State} (he : EngineEnd s t) : t.cfg = s.cfg := by
  cases he with
  | still | cycleEnd => rfl
  | received _ _ n c rx _ _ _ hbyte => simpa using hbyte.cfg_eq
  | unrecognised => simp
  | command _ _ _ _ _ hcmd => simpa using hcmd.cfg_eq
  | responded => simp

/-- Settles O52, by what the step was: no update writes the build's parameters. -/
theorem parametersNeverChange : Obligations.ParametersNeverChange := by
  intro s t hstep
  cases (step_next hstep).2 with
  | engine _ _ he => exact he.cfg_eq
  | resetDuring _ _ _ _ he => simpa using he.cfg_eq
  | awaited | delivered => rfl
  | started | notified | reset | startReset | notifyReset => simp

/-! ### ECHO (R24) -/

/-- A state that a reset left: `ECHO` is 0 and the last event is the reset's (R300, log entry 24). -/
def State.JustReset (t : State) : Prop :=
  t.echo = false ∧ ∃ bs, t.events.getLast? = some ⟨.reset, bs⟩

theorem State.systemReset_justReset (s : State) (lost : List Bool) :
    (s.systemReset lost).JustReset :=
  ⟨rfl, s.liveBytes, by simp⟩

theorem ByteEnd.echo_eq {s t : State} {i : Instr} (he : ByteEnd s i t) : t.echo = s.echo := by
  cases he <;> simp

/-- Of the commands, only `SE` writes `ECHO` and only `FR` can reset the system. -/
theorem CommandEnd.echo_cases {s t : State} {i : Instr} (he : CommandEnd i s t) :
    t.echo = s.echo ∨ i = .se ∨ t.JustReset := by
  cases he with
  | arity | arg | returned | payload => exact .inl (by simp)
  | echo hi _ => exact .inr (.inl hi)
  | reset _ lost _ => exact .inr (.inr (State.systemReset_justReset _ lost))

theorem EngineEnd.echo_cases {s t : State} (he : EngineEnd s t) :
    t.echo = s.echo ∨
      (s.busy = true ∧ s.phase = .dispatch ∧ decodeCommand s.cfg s.cw = .instr .se) ∨
      t.JustReset := by
  cases he with
  | still | cycleEnd => exact .inl rfl
  | received _ _ n c rx _ _ _ hbyte => exact .inl (by simpa using hbyte.echo_eq)
  | unrecognised => exact .inl (by simp)
  | command hb hp i hd _ hcmd =>
    rcases hcmd.echo_cases with hsame | rfl | hreset
    · exact .inl (by simpa using hsame)
    · exact .inr (.inl ⟨hb, hp, hd⟩)
    · exact .inr (.inr hreset)
  | responded => exact .inl (by simp)

/-- Settles O50, by what the step was: an engine step as `EngineEnd.echo_cases` says, a reset, or a host
action that leaves `ECHO` alone. -/
theorem echoChangesOnlyBySwitchOrReset : Obligations.EchoChangesOnlyBySwitchOrReset := by
  intro s t hstep hne
  cases (step_next hstep).2 with
  | engine host _ he => exact he.echo_cases.resolve_left hne
  | awaited | delivered => exact absurd rfl hne
  | started | notified => exact absurd (by simp) hne
  | reset | resetDuring | startReset | notifyReset =>
    exact .inr (State.systemReset_justReset _ _)

end Machine
end Sys2Proof
end

section
/-! PROOFS. Family 20_memory.md: at most one transaction a step (O48), and nothing sent is withdrawn
(O51). -/

namespace Sys2Proof
namespace Machine

/-! ### The transactions issued (R60, R113, R165) -/

theorem ByteEnd.ctl_eq {s t : State} {i : Instr} (he : ByteEnd s i t) : t.ctl = s.ctl := by
  cases he <;> simp

/-- A command issues no transaction or one (R165). -/
theorem CommandEnd.ctl_cases {s t : State} {i : Instr} (he : CommandEnd i s t) :
    t.ctl = s.ctl ∨ ∃ op, t.ctl = s.ctl ++ [op] := by
  cases he with
  | arity | arg | echo => exact .inl (by simp)
  | returned _ op | payload _ op => exact .inr ⟨op, by simp⟩
  | reset => exact .inr ⟨.reset, by simp⟩

/-- Of the engine's steps, only a dispatched command issues a transaction. -/
theorem EngineEnd.ctl_cases {s t : State} (he : EngineEnd s t) :
    t.ctl = s.ctl ∨ ∃ op, t.ctl = s.ctl ++ [op] := by
  cases he with
  | still | cycleEnd => exact .inl rfl
  | received _ _ _ _ _ _ _ _ hbyte => exact .inl (by simpa using hbyte.ctl_eq)
  | unrecognised | responded => exact .inl (by simp)
  | command _ _ _ _ _ hcmd => simpa using hcmd.ctl_cases

/-- Settles O48, by what the step was: an engine step as `EngineEnd.ctl_cases` says, cut short or not; a
cycle's start with the notifier, which issues its one query; or a host action that issues nothing. -/
theorem atMostOneTransactionPerStep : Obligations.AtMostOneTransactionPerStep := by
  intro s t hstep
  cases (step_next hstep).2 with
  | engine _ _ he => exact he.ctl_cases
  | resetDuring _ _ _ _ he => simpa using he.ctl_cases
  | awaited | delivered => exact .inl rfl
  | started | reset | startReset => exact .inl (by simp)
  | notified | notifyReset => exact .inr ⟨.notifyQuery, by simp⟩

/-! ### The bytes sent (R56, R59) -/

theorem State.tx_prefix_mirror (s : State) (c : Byte) : s.tx <+: (s.mirror c).tx := by
  rw [State.mirror_tx]
  split
  · exact List.prefix_append _ _
  · exact List.prefix_rfl

theorem State.tx_prefix_notify (s : State) (r : Reply) : s.tx <+: (s.notify r).tx := by
  rw [State.notify_tx]
  split
  · exact List.prefix_append _ _
  · exact List.prefix_rfl

/-- A cut after the bytes that stood on the channel before keeps them (R302). -/
theorem State.prefix_cutTx {t : State} {tx : List Byte} (h : tx <+: t.tx) (sent : Nat) :
    tx <+: (t.cutTx tx.length sent).tx := by
  rw [State.cutTx_tx, List.prefix_take_iff]
  exact ⟨h, Nat.le_add_right _ _⟩

/-- Of the byte classes, only the end byte of a frame that fails its checksum sends. -/
theorem ByteEnd.tx_prefix {s t : State} {i : Instr} (he : ByteEnd s i t) : s.tx <+: t.tx := by
  cases he with
  | start | append | idle => exact List.prefix_rfl
  | dataOverflow | endOverflow | valid | invalid => simp

/-- A command sends nothing: its response is a later step's. -/
theorem CommandEnd.tx_eq {s t : State} {i : Instr} (he : CommandEnd i s t) : t.tx = s.tx := by
  cases he <;> simp

theorem EngineEnd.tx_prefix {s t : State} (he : EngineEnd s t) : s.tx <+: t.tx := by
  cases he with
  | still | cycleEnd => exact List.prefix_rfl
  | received _ _ n c rx _ _ _ hbyte =>
    exact (State.tx_prefix_mirror { s with left := n, rx := rx } c).trans hbyte.tx_prefix
  | unrecognised => simp
  | command _ _ _ _ _ hcmd => simp [hcmd.tx_eq]
  | responded => simp

/-- Every step, a cut one included, keeps what the channel held as a prefix. -/
theorem StepEnd.tx_prefix {s t : State} (he : StepEnd s t) : s.tx <+: t.tx := by
  cases he with
  | engine _ _ he => exact he.tx_prefix
  | awaited | delivered => exact List.prefix_rfl
  | started | reset => simp
  | notified _ host _ r =>
    exact State.tx_prefix_notify
      (({ s with host := host, busy := true } : State).called .notifyQuery) r
  | resetDuring _ sent _ _ he => exact State.prefix_cutTx he.tx_prefix sent
  | startReset _ _ sent => exact State.prefix_cutTx (by simp) sent
  | notifyReset _ host sent _ r =>
    have hnotify := State.tx_prefix_notify
      (({ s with host := host, busy := true } : State).called .notifyQuery) r
    exact State.prefix_cutTx (by simpa using hnotify) sent

/-- Settles O51: the bytes appended are what follows the prefix of `StepEnd.tx_prefix`. -/
theorem transmissionNeverWithdrawn : Obligations.TransmissionNeverWithdrawn := by
  intro s t hstep
  obtain ⟨w, hw⟩ := (step_next hstep).2.tx_prefix
  exact ⟨w, hw.symm⟩

end Machine
end Sys2Proof
end

section
/-! PROOFS. Family 30_encoding.md: the classes of received bytes (O1), command words and their encodings
(O58, O59, O60). -/

namespace Sys2Proof
namespace Machine

/-! ### The classes of a received byte (R70) -/

theorem decodeByte_soc {P : Params} (acc : Bool) {c : Byte} (h : c = P.soc) :
    decodeByte P acc c = .rxSoc := if_pos h

theorem decodeByte_eoc {P : Params} {c : Byte} (hsoc : c ≠ P.soc) (heoc : c = P.eoc) :
    decodeByte P true c = .rxEoc := by
  rw [decodeByte, if_neg hsoc, if_pos rfl, if_pos heoc]

theorem decodeByte_data {P : Params} {c : Byte} (hsoc : c ≠ P.soc) (heoc : c ≠ P.eoc) :
    decodeByte P true c = .rxData c := by
  rw [decodeByte, if_neg hsoc, if_pos rfl, if_neg heoc]

theorem decodeByte_idle {P : Params} {c : Byte} (hsoc : c ≠ P.soc) :
    decodeByte P false c = .rxIdle c := by
  rw [decodeByte, if_neg hsoc, if_neg Bool.false_ne_true]

/-- Settles O1, a clause from the equation of each class. -/
theorem byteClassFirstMatch : Obligations.ByteClassFirstMatch := by
  intro P acc c
  refine ⟨decodeByte_soc acc, ?_, ?_, ?_⟩
  · rintro hsoc heoc rfl
    exact decodeByte_eoc hsoc heoc
  · rintro hsoc heoc rfl
    exact decodeByte_data hsoc heoc
  · rintro hsoc rfl
    exact decodeByte_idle hsoc

/-- The two sentinels of a well-formed build differ (R71). -/
theorem Params.eoc_ne_soc {P : Params} (h : P.ok = true) : P.eoc ≠ P.soc := by
  simp only [Params.ok, Bool.and_eq_true, bne_iff_ne] at h
  obtain ⟨⟨⟨⟨⟨⟨⟨hne, _⟩, _⟩, _⟩, _⟩, _⟩, _⟩, _⟩ := h
  exact hne.symm

/-- What R70 selects encodes as the byte received and is well formed. -/
theorem decodeByte_encode_wellFormed (P : Params) (acc : Bool) (c : Byte) :
    encode P (decodeByte P acc c) = [c] ∧ (decodeByte P acc c).wellFormed P acc = true := by
  by_cases hsoc : c = P.soc
  · rw [decodeByte_soc acc hsoc]
    exact ⟨by rw [hsoc]; rfl, rfl⟩
  cases acc with
  | false =>
    rw [decodeByte_idle hsoc]
    exact ⟨rfl, by simp [Instr.wellFormed, hsoc]⟩
  | true =>
    by_cases heoc : c = P.eoc
    · rw [decodeByte_eoc hsoc heoc]
      exact ⟨by rw [heoc]; rfl, rfl⟩
    · rw [decodeByte_data hsoc heoc]
      exact ⟨rfl, by simp [Instr.wellFormed, hsoc, heoc]⟩

/-! ### Command words (R74, R82, R83) -/

/-- A command is met where it is compiled in, in both assembly states (R83). -/
theorem Instr.wellFormed_command {i : Instr} (hi : i.isCommand = true) (P : Params) (acc : Bool) :
    i.wellFormed P acc = P.present.contains i := by
  cases i
  case rxSoc | rxEoc | rxData | rxIdle => cases hi
  all_goals rfl

theorem decode_pair (P : Params) (acc : Bool) (cat sub : Byte) :
    decode P acc [cat, sub] = decodeLetters P cat sub := by
  rw [decode, decodeCommand, commandWord_high, commandWord_low]

/-- The lookup answers the instruction of the row it finds, where that is compiled in (R162). -/
theorem decodeLetters_of_row {P : Params} {cat sub : Byte} {rows : List Row} {i : Instr}
    (hrows : categoryRows cat = some rows)
    (hrow : rows.find? (fun r => r.sub == sub) = some ⟨sub, i⟩)
    (hp : P.present.contains i = true) : decodeLetters P cat sub = .instr i := by
  simp only [decodeLetters, hrows, hrow, if_pos hp]

/-- Every command has its row in the tables of R82, under the letters of its encoding. -/
theorem decode_encode_command {P : Params} (acc : Bool) {i : Instr} (hi : i.isCommand = true)
    (hp : P.present.contains i = true) : decode P acc (encode P i) = .instr i := by
  cases i
  case rxSoc | rxEoc | rxData | rxIdle => cases hi
  all_goals exact (decode_pair P acc _ _).trans (decodeLetters_of_row rfl rfl hp)

/-- Settles O58: a byte class by its equation, a command by its row. -/
theorem decodeOfEncode : Obligations.DecodeOfEncode := by
  intro P acc i hok hwf
  cases i
  case rxSoc => exact congrArg Decoded.instr (decodeByte_soc acc rfl)
  case rxEoc =>
    obtain rfl : acc = true := hwf
    exact congrArg Decoded.instr (decodeByte_eoc (Params.eoc_ne_soc hok) rfl)
  case rxData c =>
    simp only [Instr.wellFormed, Bool.and_eq_true, bne_iff_ne] at hwf
    obtain ⟨⟨rfl, hsoc⟩, heoc⟩ := hwf
    exact congrArg Decoded.instr (decodeByte_data hsoc heoc)
  case rxIdle c =>
    simp only [Instr.wellFormed, Bool.and_eq_true, bne_iff_ne, Bool.not_eq_true'] at hwf
    obtain ⟨rfl, hsoc⟩ := hwf
    exact congrArg Decoded.instr (decodeByte_idle hsoc)
  all_goals exact decode_encode_command acc rfl hwf

/-- Settles O59, by the number of bytes: one is a received byte, two are a command word, and any other
number is rejected. -/
theorem decodeOnlyEncodings : Obligations.DecodeOnlyEncodings := by
  intro P acc bs i h
  match bs with
  | [] => cases h
  | [c] =>
    obtain rfl : decodeByte P acc c = i := Decoded.instr.inj h
    exact decodeByte_encode_wellFormed P acc c
  | [cat, sub] =>
    rw [decode_pair] at h
    obtain ⟨hcmd, hpresent, henc⟩ := decodeLetters_instr h
    exact ⟨henc, (Instr.wellFormed_command hcmd P acc).trans hpresent⟩
  | _ :: _ :: _ :: _ => cases h

/-- Settles O60, by evaluating the decoder on the six words. -/
theorem tableWordsDecode : Obligations.TableWordsDecode := by
  unfold Obligations.TableWordsDecode
  decide

end Machine
end Sys2Proof
end

section
/-! PROOFS. Family 30_encoding.md: a checksummed frame is received and dispatched (O27). -/

namespace Sys2Proof
namespace Machine

/-! ### The checksummed frame (R87) -/

/-- The value of a hex digit a sender writes (R87, R140). -/
theorem hv_hexUpper : ∀ n : BitVec 4, hv (hexUpper n) = n.setWidth 8 := by decide

/-- No hex digit a sender writes may be a sentinel (R71, R87). -/
theorem sentinelAllowed_hexUpper : ∀ n : BitVec 4, sentinelAllowed (hexUpper n) = false := by decide

/-- A sender's two digits of a sum read back as the sum (R87, R140). -/
theorem htou_hex2 (v : Byte) :
    htou (hexUpper (v.extractLsb' 4 4)) (hexUpper (v.extractLsb' 0 4)) = v := by
  rw [htou, hv_hexUpper, hv_hexUpper]
  refine BitVec.eq_of_toNat_eq ?_
  have := v.isLt
  simp only [BitVec.toNat_add, BitVec.toNat_mul, BitVec.toNat_setWidth, BitVec.extractLsb'_toNat,
    BitVec.toNat_ofNat, Nat.shiftRight_eq_div_pow]
  omega

/-- The bytes between a frame's start and end bytes: the body, the asterisk and the digits. -/
def frameData (P : Params) (body : List Byte) : List Byte :=
  body ++ asterisk :: hex2 (bodySum P body)

theorem frameOf_eq (P : Params) (body : List Byte) :
    frameOf P body = P.soc :: (frameData P body ++ [P.eoc]) := rfl

theorem length_frameData (P : Params) (body : List Byte) :
    (frameData P body).length = body.length + 3 := by
  simp [frameData, hex2]

/-- A frame holds no sentinel between its start and end bytes where its body holds none (R71, R87). -/
theorem frameData_not_sentinel {P : Params} (hP : P.ok = true) {body : List Byte}
    (h : ∀ b ∈ body, P.isSentinel b = false) : ∀ b ∈ frameData P body, P.isSentinel b = false := by
  intro b hb
  simp only [frameData, hex2, List.mem_append, List.mem_cons, List.not_mem_nil, or_false] at hb
  rcases hb with hb | rfl | rfl | rfl
  · exact h b hb
  · exact P.not_sentinel_of_not_allowed hP _ (by decide)
  · exact P.not_sentinel_of_not_allowed hP _ (sentinelAllowed_hexUpper _)
  · exact P.not_sentinel_of_not_allowed hP _ (sentinelAllowed_hexUpper _)

/-! ### The scan of a checksummed frame (R133, R134) -/

theorem State.length_slice (s : State) (a b : Nat) : (s.slice a b).length = b - a := by
  simp [State.slice]

/-- A slice that reads as two texts is the slice of the one and then the slice of the other. -/
theorem State.slice_eq_append {s : State} {a b : Nat} {xs ys : List Byte}
    (h : s.slice a b = xs ++ ys) :
    s.slice a (a + xs.length) = xs ∧ s.slice (a + xs.length) b = ys := by
  have hlen := congrArg List.length h
  rw [s.length_slice, List.length_append] at hlen
  by_cases hx : xs = []
  · subst hx
    exact ⟨s.slice_self a, h⟩
  have := List.length_pos_iff.mpr hx
  rw [← s.slice_append (Nat.le_add_right a xs.length) (by omega)] at h
  exact List.append_inj h (by rw [s.length_slice]; omega)

/-- A slice that begins with a byte holds it at its first index. -/
theorem State.slice_eq_cons {s : State} {a b : Nat} {x : Byte} {xs : List Byte}
    (h : s.slice a b = x :: xs) : s.fbByte a = x ∧ s.slice (a + 1) b = xs := by
  have hlen := congrArg List.length h
  rw [s.length_slice, List.length_cons] at hlen
  rw [s.slice_cons (by omega)] at h
  exact List.cons.inj h

/-- The sum of a frame with a body is the start byte plus every scanned byte (R132, R133, R143). -/
theorem State.tokenize_sum_eq_foldl (s : State) (h : 2 ≤ s.len) :
    s.tokenize.sum = (s.slice 1 s.tokenize.scanEnd).foldl (· + ·) s.cfg.soc := by
  obtain ⟨eEnd, eSum, -⟩ := s.tokenize_scan h
  obtain ⟨hge, -, -, hsum, -⟩ := (s.scan_run h).spec
  have hge : 2 ≤ s.scan.i := hge
  have hfirst : s.byteAt 1 = s.fbByte 1 := if_pos (by omega)
  rw [eEnd, eSum, hsum, s.slice_cons (by omega : 1 < s.scan.i), List.foldl_cons]
  simp only [State.scanStart, hfirst]

/-- The scan stops at the first asterisk where no `NUL` stands before it, and reads the declared
checksum after it (R133, R134). -/
theorem State.tokenize_at_star {s : State} {m : Nat} (hm : 2 ≤ m) (hlen : m < s.len)
    (hbefore : ∀ j, 2 ≤ j → j < m → s.fbByte j ≠ asterisk ∧ s.fbByte j ≠ nul)
    (hstar : s.fbByte m = asterisk) :
    s.tokenize.scanEnd = m ∧ s.tokenize.starSeen = true ∧
      s.tokenize.decl = htou (s.byteAt (m + 1)) (s.byteAt (m + 2)) := by
  have h2 : 2 ≤ s.len := by omega
  obtain ⟨eEnd, -, eDecl, eSeen, -⟩ := s.tokenize_scan h2
  obtain ⟨hge, -, hscanned, -, -, hstop⟩ := (s.scan_run h2).spec
  have hle : s.scan.i ≤ m := Nat.le_of_not_lt fun hlt => (hscanned m hm hlt).2 hstar
  have hnone : s.scan.i < m → s.fbByte s.scan.i ≠ asterisk ∧ s.fbByte s.scan.i ≠ nul :=
    hbefore s.scan.i hge
  rw [eEnd, eSeen, eDecl]
  rcases hstop with ⟨-, hs, hseen, hdecl⟩ | ⟨hs, -⟩
  · obtain rfl : s.scan.i = m := hle.antisymm (Nat.le_of_not_lt fun hlt => (hnone hlt).1 hs)
    exact ⟨rfl, hseen, hdecl⟩
  · rcases hs with hs | ⟨-, hs⟩
    · omega
    · rcases hle.eq_or_lt with rfl | hlt
      · exact absurd (hs.symm.trans hstar) (by decide)
      · exact absurd hs (hnone hlt).2

/-- `Tokenize()` of a checksummed frame finds the body, and its sum is the one the digits declare. -/
theorem State.tokenize_frame {s : State} {c : Byte} {body : List Byte}
    (hframe : s.slice 0 s.len = s.cfg.soc :: frameData s.cfg (c :: body))
    (hbody : ∀ b ∈ body, b ≠ asterisk ∧ b ≠ nul) :
    s.tokenize.valid = true ∧ s.slice 1 s.tokenize.scanEnd = c :: body ∧
      s.tokenize.starSeen = true := by
  have hlen := congrArg List.length hframe
  simp only [s.length_slice, List.length_cons, length_frameData] at hlen
  obtain ⟨hscanned, htrailer⟩ := State.slice_eq_append (State.slice_eq_cons hframe).2
  rw [show 0 + 1 + (c :: body).length = body.length + 2 by simp; omega] at hscanned htrailer
  obtain ⟨-, hrest⟩ := State.slice_eq_cons hscanned
  obtain ⟨hstar, hdigits⟩ := State.slice_eq_cons htrailer
  obtain ⟨hhigh, hdigits⟩ := State.slice_eq_cons hdigits
  obtain ⟨hlow, -⟩ := State.slice_eq_cons hdigits
  obtain ⟨hend, hseen, hdecl⟩ := State.tokenize_at_star (by omega) (by omega)
    (fun j h1 h2 => hbody _ (hrest ▸ s.mem_slice.mpr ⟨j, h1, h2, rfl⟩)) hstar
  rw [State.byteAt, State.byteAt, if_pos (by omega), if_pos (by omega), hhigh, hlow,
    htou_hex2] at hdecl
  have hsum := s.tokenize_sum_eq_foldl (by omega)
  rw [hend, hscanned] at hsum
  exact ⟨beq_iff_eq.mpr (hsum.trans hdecl.symm), hend ▸ hscanned, hseen⟩

/-! ### The byte classes and the step that runs them (R102 to R107) -/

theorem exec_rxSoc {s : State} (h : 0 < s.cfg.bufLen) :
    exec .rxSoc s =
      .next { s with fb := Memory.write s.fb 0 s.cfg.soc, len := 1, acc := true } :=
  State.storeFb_eq (s := { s with len := 1, acc := true }) s.cfg.soc h

theorem exec_rxData {s : State} (c : Byte) (h : s.len < s.cfg.bufLen) :
    exec (.rxData c) s =
      .next { s with fb := Memory.write s.fb s.len c, len := s.len + 1 } :=
  (if_pos h).trans (State.storeFb_eq (s := { s with len := s.len + 1 }) c h)

theorem exec_rxEoc_valid {s : State} (h : s.len < s.cfg.bufLen) (hv : s.tokenize.valid = true) :
    exec .rxEoc s = .next { s.tokenize with phase := .dispatch } := by
  refine (if_pos h).trans (congrArg _ ?_)
  simp only [State.frameComplete, if_pos hv]

theorem State.mirror_eq (s : State) (c : Byte) :
    s.mirror c = { s with tx := s.tx ++ if s.echo then [c] else [] } := by
  unfold State.mirror
  split
  · rfl
  · rw [List.append_nil]

/-- The state in which the class of the byte `c` is run: `c` is off the RX channel, with `n` bytes of
the batch to go, and echoed (R102, R103). -/
def State.taken (s : State) (c : Byte) (rx : List Byte) (n : Nat) : State :=
  { s with left := n, rx := rx, tx := s.tx ++ if s.echo then [c] else [] }

theorem State.receiveStep_cons {s : State} {c : Byte} {rx : List Byte} {n : Nat}
    (hleft : s.left = n + 1) (hrx : s.rx = c :: rx) :
    s.receiveStep = exec (decodeByte s.cfg s.acc c) (s.taken c rx n) := by
  simp only [State.receiveStep, hleft, hrx, State.mirror_eq]
  rfl

theorem State.engineStep_receive {s : State} (hbusy : s.busy = true) (hphase : s.phase = .receive) :
    s.engineStep = s.receiveStep := by
  simp only [State.engineStep, hbusy, hphase, if_true]

/-! ### Receiving a frame byte by byte -/

/-- Inside a batch of a well-formed build, with no host action pending: the next bytes are `todo`, and
`rest` follows them on the RX channel, `n` bytes of it in the batch (R102). -/
structure State.Reading (s : State) (todo rest : List Byte) (n : Nat) : Prop where
  ok : s.cfg.ok = true
  memWf : Memory.wf s.fb
  host : s.host = []
  busy : s.busy = true
  phase : s.phase = .receive
  rx : s.rx = todo ++ rest
  left : s.left = n + todo.length

/-- From `s` to `t` the bytes `got` of one frame were collected: they stand in the frame buffer, and
nothing was sent but their echo. -/
structure State.Collected (s t : State) (got : List Byte) : Prop where
  cfg : t.cfg = s.cfg
  echo : t.echo = s.echo
  live : got ≠ [] → t.acc = true ∧ t.len = got.length
  stored : t.slice 0 got.length = got
  ctl : t.ctl = s.ctl
  tx : t.tx = s.tx ++ if s.echo then got else []

theorem State.Collected.refl (s : State) : s.Collected s [] :=
  ⟨rfl, rfl, fun h => absurd rfl h, s.slice_self 0, rfl, by simp⟩

section Collecting

variable {s t : State} {got todo rest : List Byte} {b : Byte} {n : Nat}

/-- A step inside a batch takes the next byte and runs its class. -/
theorem State.Reading.step_eq (h : t.Reading (b :: todo) rest n) :
    step t = exec (decodeByte t.cfg t.acc b) (t.taken b (todo ++ rest) (n + todo.length)) := by
  rw [step_eq_hostStep h.ok, State.hostStep_nil h.host, State.engineStep_receive h.busy h.phase,
    State.receiveStep_cons (rx := todo ++ rest) (n := n + todo.length) h.left h.rx]

/-- A byte taken and stored behind the collected ones is collected with them. -/
theorem State.Collected.store (hc : s.Collected t got) (hr : t.Reading (b :: todo) rest n)
    {u : State} (hu : u = { t.taken b (todo ++ rest) (n + todo.length) with
      fb := Memory.write t.fb got.length b, len := got.length + 1, acc := true }) :
    u.Reading todo rest n ∧ s.Collected u (got ++ [b]) := by
  subst hu
  refine ⟨⟨hr.ok, Memory.wf_write _ hr.memWf _ _, hr.host, hr.busy, hr.phase, rfl, rfl⟩,
    hc.cfg, hc.echo, fun _ => ⟨rfl, by simp⟩, ?_, hc.ctl, ?_⟩
  · rw [List.length_append, List.length_singleton, State.slice_snoc _ (Nat.zero_le _)]
    congr 1
    · refine Eq.trans (State.slice_congr fun j _ hj => ?_) hc.stored
      exact Memory.read_write_other _ _ _ _ (by omega)
    · exact congrArg (fun v => [v]) (Memory.read_write_same _ hr.memWf _ _)
  · simp only [State.taken, hc.tx, hc.echo]
    split <;> simp

/-- A start byte is collected as the first of its frame (R104). -/
theorem State.Reading.step_soc (hr : t.Reading (t.cfg.soc :: todo) rest n) :
    ∃ u, step t = .next u ∧ u.Reading todo rest n ∧ t.Collected u [t.cfg.soc] := by
  have hroom : 0 < t.cfg.bufLen := by have := (Params.ok_sizes hr.ok).1; omega
  refine ⟨_, ?_, (State.Collected.refl t).store hr rfl⟩
  rw [hr.step_eq, decodeByte_soc _ rfl]
  exact exec_rxSoc hroom

/-- A data byte with room is collected behind those of its frame (R107). -/
theorem State.Collected.step_data (hc : s.Collected t got) (hgot : got ≠ [])
    (hr : t.Reading (b :: todo) rest n) (hb : s.cfg.isSentinel b = false)
    (hroom : got.length < s.cfg.bufLen) :
    ∃ u, step t = .next u ∧ u.Reading todo rest n ∧ s.Collected u (got ++ [b]) := by
  obtain ⟨hacc, hlen⟩ := hc.live hgot
  rw [← hc.cfg] at hb hroom
  simp only [Params.isSentinel, Bool.or_eq_false_iff, beq_eq_false_iff_ne] at hb
  obtain ⟨hsoc, heoc⟩ := hb
  refine ⟨_, ?_, hc.store hr rfl⟩
  rw [hr.step_eq, hacc, decodeByte_data hsoc heoc, ← hlen, ← hacc]
  exact exec_rxData b (hlen.trans_lt hroom)

end Collecting

/-- A run of one step more goes on from the next state. -/
theorem core_run_succ {s t : State} (h : step s = .next t) (k : Nat) :
    Host.Core.run core (k + 1) s = Host.Core.run core k t := by
  have hcore : core.step s = .next t := h
  simp only [Host.Core.run, hcore]

/-- Data bytes that fit are collected, one step a byte, and the run goes on behind them. -/
theorem State.Collected.run_data {s t : State} {got bs todo rest : List Byte} {n : Nat}
    (hc : s.Collected t got) (hgot : got ≠ []) (hr : t.Reading (bs ++ todo) rest n)
    (hbs : ∀ b ∈ bs, s.cfg.isSentinel b = false) (hroom : got.length + bs.length ≤ s.cfg.bufLen) :
    ∃ u : State, (∀ k, Host.Core.run core (bs.length + k) t = Host.Core.run core k u) ∧
      u.Reading todo rest n ∧ s.Collected u (got ++ bs) := by
  induction bs generalizing t got with
  | nil => exact ⟨t, fun k => by simp, hr, by simpa using hc⟩
  | cons b bs ih =>
    rw [List.length_cons] at hroom
    obtain ⟨v, hstep, hrv, hcv⟩ :=
      hc.step_data hgot hr (hbs b List.mem_cons_self) (by omega)
    obtain ⟨u, hrun, hru, hcu⟩ := ih hcv (by simp) hrv
      (fun x hx => hbs x (List.mem_cons_of_mem _ hx)) (by simp; omega)
    refine ⟨u, fun k => ?_, hru, by simpa using hcu⟩
    rw [List.length_cons, Nat.add_right_comm, core_run_succ hstep, hrun]

/-- The end byte of a collected checksummed frame with room for it completes the frame, and its
dispatch is next (R105, R110). -/
theorem State.Collected.step_eoc {s t : State} {c : Byte} {body rest : List Byte} {n : Nat}
    (hc : s.Collected t (s.cfg.soc :: frameData s.cfg (c :: body)))
    (hr : t.Reading [s.cfg.eoc] rest n) (hroom : (c :: body).length + 4 < s.cfg.bufLen)
    (hbody : ∀ b ∈ body, b ≠ asterisk ∧ b ≠ nul) :
    ∃ u, step t = .next u ∧ u.phase = .dispatch ∧ u.valid = true ∧
      u.slice 1 u.scanEnd = c :: body ∧ u.starSeen = true ∧ u.rx = rest ∧ u.left = n ∧
      u.ctl = s.ctl ∧ u.tx = s.tx ++ if s.echo then frameOf s.cfg (c :: body) else [] := by
  obtain ⟨hacc, hlen⟩ := hc.live (List.cons_ne_nil _ _)
  have hstored := hc.stored
  rw [← hlen, ← hc.cfg] at hstored
  rw [List.length_cons, length_frameData] at hlen
  have hdecode : decodeByte t.cfg t.acc s.cfg.eoc = .rxEoc := by
    rw [hacc, hc.cfg]
    exact decodeByte_eoc (Params.eoc_ne_soc (hc.cfg ▸ hr.ok)) rfl
  obtain ⟨hvalid, hscanned, hseen⟩ :=
    State.tokenize_frame (s := t.taken s.cfg.eoc rest n) hstored hbody
  refine ⟨{ (t.taken s.cfg.eoc rest n).tokenize with phase := .dispatch }, ?_, rfl,
    hvalid, hscanned, hseen, rfl, rfl, hc.ctl, ?_⟩
  · rw [hr.step_eq, hdecode]
    refine exec_rxEoc_valid ?_ hvalid
    show t.len < t.cfg.bufLen
    rw [hlen, hc.cfg]
    exact hroom
  · simp only [State.tokenize_tx, State.taken, hc.tx, hc.echo, frameOf_eq]
    split <;> simp

/-- Settles O27: the start byte begins the frame, the data bytes are collected behind it, by induction
over them, and the end byte completes a frame that the scan finds valid. -/
theorem checksummedFrameAccepted : Obligations.ChecksummedFrameAccepted := by
  intro s c body rest n hok hwf hhost hbusy hphase hrx hleft hroom hsent hbody
  have hreading : s.Reading (s.cfg.soc :: (frameData s.cfg (c :: body) ++ [s.cfg.eoc])) rest n :=
    ⟨hok, hwf, hhost, hbusy, hphase, hrx, hleft⟩
  obtain ⟨t, hsoc, hrt, hct⟩ := hreading.step_soc
  obtain ⟨u, hrun, hru, hcu⟩ := hct.run_data (by simp) hrt (frameData_not_sentinel hok hsent)
    (by simp only [List.length_singleton, length_frameData]; omega)
  obtain ⟨v, heoc, hv⟩ := hcu.step_eoc hru hroom hbody
  refine ⟨v, ?_, hv⟩
  rw [frameOf_eq, List.length_cons, List.length_append, core_run_succ hsoc, hrun]
  exact core_run_succ heoc 0

end Machine
end Sys2Proof
end

section
/-! PROOFS. Family 40_assembler.md: the byte classes (O2 to O8), the receive and cycle steps (O10, O14 to
O16), and what follows a dispatch (O53). -/

namespace Sys2Proof
namespace Machine

/-! ### What the byte classes leave alone (R55, R64) -/

section ByteFrames

variable {s t : State} {i : Instr} {c : Byte}

theorem ByteEnd.outside_eq (he : ByteEnd s i t) :
    t.cfg = s.cfg ∧ t.echo = s.echo ∧ t.busy = s.busy ∧ t.rb = s.rb ∧ t.rlen = s.rlen ∧
      t.pflag = s.pflag ∧ t.status = s.status ∧ t.left = s.left ∧ t.rx = s.rx ∧ t.ctl = s.ctl ∧
      t.answers = s.answers ∧ t.draws = s.draws ∧ t.host = s.host := by
  cases he <;> simp

/-- Only an end byte scans the frame or sends an answer. -/
theorem ByteEnd.scan_eq (he : ByteEnd s i t) (hi : i ≠ .rxEoc) :
    t.tcnt = s.tcnt ∧ t.slots = s.slots ∧ t.scanEnd = s.scanEnd ∧ t.sum = s.sum ∧
      t.decl = s.decl ∧ t.starSeen = s.starSeen ∧ t.phase = s.phase ∧ t.tx = s.tx := by
  cases he with
  | start | append | dataOverflow | idle => simp
  | endOverflow | valid | invalid => exact absurd rfl hi

theorem State.fbByte_congr (h : t.fb = s.fb) (a : Nat) : t.fbByte a = s.fbByte a :=
  congrArg (Memory.read · a) h

/-- A byte written to a canonical buffer is read back, and every other one is as before. -/
theorem State.fbByte_write (hwf : Memory.wf s.fb) {k : Nat} (h : t.fb = Memory.write s.fb k c) :
    t.fbByte k = c ∧ ∀ a, a ≠ k → t.fbByte a = s.fbByte a := by
  simp only [State.fbByte, h]
  exact ⟨Memory.read_write_same _ hwf _ _, fun _ => Memory.read_write_other _ _ _ _⟩

theorem ByteEnd.fb_rxSoc (he : ByteEnd s .rxSoc t) : t.fb = Memory.write s.fb 0 s.cfg.soc := by
  cases he
  rfl

theorem ByteEnd.fb_rxData (he : ByteEnd s (.rxData c) t) (h : s.len < s.cfg.bufLen) :
    t.fb = Memory.write s.fb s.len c := by
  cases he with
  | append => rfl
  | dataOverflow _ hfull => omega

theorem ByteEnd.fb_rxData_full (he : ByteEnd s (.rxData c) t) (h : s.cfg.bufLen ≤ s.len) :
    t.fb = s.fb := by
  cases he with
  | append _ hroom => omega
  | dataOverflow => rfl

theorem ByteEnd.fb_rxEoc (he : ByteEnd s .rxEoc t) : t.fb = s.fb := by
  cases he <;> rfl

theorem ByteEnd.fb_rxIdle (he : ByteEnd s (.rxIdle c) t) : t.fb = s.fb := by
  cases he
  rfl

end ByteFrames

/-- Settles O6: the registers from `ByteEnd.outside_eq` and `ByteEnd.scan_eq`, the bytes of each class
from what it writes to the buffer. -/
theorem byteClassesFrame : Obligations.ByteClassesFrame := by
  intro s t i hwf hi h
  have he := exec_byte_next hi h
  refine ⟨he.outside_eq, he.scan_eq, ?_, ?_, ?_, ?_, ?_⟩
  · rintro rfl
    exact State.fbByte_write hwf he.fb_rxSoc
  · rintro c rfl hroom
    exact State.fbByte_write hwf (he.fb_rxData hroom)
  · rintro c rfl hfull
    exact State.fbByte_congr (he.fb_rxData_full hfull)
  · rintro rfl
    exact State.fbByte_congr he.fb_rxEoc
  · rintro c rfl
    exact State.fbByte_congr he.fb_rxIdle

/-! ### What follows a dispatch (R110, R165, R168) -/

/-- A command leaves the frame held and the response next, or its `C_RESET` reset the system. -/
theorem CommandEnd.responds_or_resets {i : Instr} {s t : State} (he : CommandEnd i s t) :
    (∃ cls, t.phase = .respond cls ∧ t.busy = s.busy ∧ t.acc = s.acc ∧ t.len = s.len) ∨
      (t.busy = false ∧ t.acc = false ∧ t.ctl = s.ctl ++ [.reset]) := by
  cases he with
  | arity | arg | echo | returned | payload => exact .inl ⟨_, rfl, rfl, rfl, rfl⟩
  | reset => exact .inr ⟨rfl, rfl, rfl⟩

/-- Settles O53: an unrecognised word leads to the response, a command ends as `CommandEnd` says. -/
theorem dispatchLeadsToResponse : Obligations.DispatchLeadsToResponse := by
  intro s t hhost hbusy hphase h
  rw [step_eq_hostStep (step_next h).1, State.hostStep_nil hhost] at h
  cases State.engineStep_next h with
  | still hb => exact absurd (hbusy.symm.trans hb) (by decide)
  | cycleEnd _ hp | received _ hp | responded _ _ hp => cases hphase.symm.trans hp
  | unrecognised => exact ⟨rfl, .inl ⟨_, rfl, hbusy, rfl, rfl⟩⟩
  | command _ _ _ _ _ he =>
    have hends := he.responds_or_resets
    rw [show s.clearPayload.busy = true from hbusy] at hends
    exact ⟨he.tx_eq, hends⟩

/-! ### The byte classes as exact next states (R104 to R109) -/

/-- Settles O2: a well-formed build has room for the start byte. -/
theorem startByteRestartsFrame : Obligations.StartByteRestartsFrame := by
  intro s hok
  have hsizes := Params.ok_sizes hok
  exact exec_rxSoc (by omega)

/-- Settles O3: with room, the store of the byte completes. -/
theorem dataByteAppends : Obligations.DataByteAppends := fun _ => exec_rxData

theorem exec_rxData_full {s : State} (c : Byte) (h : s.cfg.bufLen ≤ s.len) :
    exec (.rxData c) s = .next (s.abandon .overflow) := if_neg h.not_gt

theorem exec_rxEoc_full {s : State} (h : s.cfg.bufLen ≤ s.len) :
    exec .rxEoc s = .next (s.abandon .overflow) := if_neg h.not_gt

/-- Settles O4: both classes abandon the frame. -/
theorem fullBufferAbandonsFrame : Obligations.FullBufferAbandonsFrame :=
  fun _ c h => ⟨exec_rxData_full c h, exec_rxEoc_full h⟩

/-- Settles O5: the meaning of an idle byte is the identity (R109). -/
theorem idleByteIsDiscarded : Obligations.IdleByteIsDiscarded := fun _ _ => rfl

/-- Settles O7: equal sums are what `VALID` tests (R33). -/
theorem validFrameIsDispatched : Obligations.ValidFrameIsDispatched :=
  fun _ hroom hsum => exec_rxEoc_valid hroom (beq_iff_eq.mpr hsum)

theorem exec_rxEoc_invalid {s : State} (h : s.len < s.cfg.bufLen)
    (hv : s.tokenize.valid = false) :
    exec .rxEoc s =
      .next (((s.tokenize.record .checksum).frameReset).emitResponse false) := by
  refine (if_pos h).trans (congrArg _ ?_)
  simp only [State.frameComplete, hv, Bool.false_eq_true, if_false]

/-- Settles O8: the negative response of `exec_rxEoc_invalid`, written out. -/
theorem checksumFailureAnswersNK : Obligations.ChecksumFailureAnswersNK :=
  fun _ hroom hsum => exec_rxEoc_invalid hroom (beq_eq_false_iff_ne.mpr hsum)

/-! ### The steps of a cycle (R100 to R103, R113) -/

/-- Inside a batch, with no host action pending, a step receives. -/
theorem step_eq_receiveStep {s : State} (hok : s.cfg.ok = true) (hhost : s.host = [])
    (hbusy : s.busy = true) (hphase : s.phase = .receive) : step s = s.receiveStep := by
  rw [step_eq_hostStep hok, State.hostStep_nil hhost, State.engineStep_receive hbusy hphase]

/-- Settles O10: the step receives, and `State.taken` is the state the class runs on. -/
theorem stepRunsReceivedByte : Obligations.StepRunsReceivedByte := by
  intro s n c rest hok hhost hbusy hphase hleft hrx
  rw [step_eq_receiveStep hok hhost hbusy hphase]
  exact State.receiveStep_cons hleft hrx

theorem State.receiveStep_zero {s : State} (h : s.left = 0) :
    s.receiveStep = .next { s with busy := false } := by
  simp only [State.receiveStep, h]

/-- Settles O14: the step receives, with nothing left to read. -/
theorem cycleEndsAfterBatch : Obligations.CycleEndsAfterBatch := by
  intro s hok hhost hbusy hphase hleft
  rw [step_eq_receiveStep hok hhost hbusy hphase, State.receiveStep_zero hleft]

/-- Without the notifier, a cycle starts with its batch (R100, R102). -/
theorem State.startCycle_silent {s : State} (hbusy : s.busy = false) (hidden : Nat) :
    s.startCycle false hidden = .next (({ s with busy := true } : State).beginBatch hidden) := by
  simp only [State.startCycle, hbusy, Bool.false_eq_true, if_false]

/-- With the notifier, a cycle starts with the query, and its batch follows what the notifier sends
(R101, R102). -/
theorem State.startCycle_notify {s : State} {r : Reply} (hbusy : s.busy = false) (hidden : Nat)
    (ha : s.answerTo .notifyQuery = .reply r) :
    s.startCycle true hidden = .next
      (((({ s with busy := true } : State).called .notifyQuery).notify r).beginBatch hidden) := by
  have ha : ({ s with busy := true } : State).answerTo .notifyQuery = .reply r := ha
  simp only [State.startCycle, hbusy, Bool.false_eq_true, if_false, if_true,
    State.transact_reply _ ha]

/-- Settles O15: the cycle's start of `State.startCycle_silent`. -/
theorem cycleStartSamplesBatch : Obligations.CycleStartSamplesBatch := by
  intro s hidden rest hok hbusy hhost
  rw [step_eq_hostStep hok, State.hostStep_strobe hhost]
  exact State.startCycle_silent (s := { s with host := rest }) hbusy hidden

theorem State.notify_eq (s : State) (r : Reply) :
    s.notify r =
      { s with tx := s.tx ++ if r.changed then notificationBytes s.cfg r.st else [] } := by
  unfold State.notify
  split
  · rfl
  · rw [List.append_nil]

/-- Settles O16: the cycle's start of `State.startCycle_notify`, with the notification written out. -/
theorem notifierSendsStateChange : Obligations.NotifierSendsStateChange := by
  intro s hidden rest r hok hbusy hhost ha
  rw [step_eq_hostStep hok, State.hostStep_strobe hhost,
    State.startCycle_notify (s := { s with host := rest }) hbusy hidden ha, State.notify_eq]
  rfl

end Machine
end Sys2Proof
end

section
/-! PROOFS. Family 41_tokenizer.md: the scan (O20 to O22), its verdict (O24 to O26), and the hexadecimal
and decimal values (O28, O30). -/

namespace Sys2Proof
namespace Machine

/-! ### The tokenized frame with a body (R133 to R135) -/

/-- What `ScanRun.spec` says of the registers `Tokenize()` leaves. -/
theorem State.tokenize_spec (s : State) (h : 2 ≤ s.len) :
    2 ≤ s.tokenize.scanEnd ∧ s.tokenize.scanEnd ≤ s.len ∧
    (∀ j, 2 ≤ j → j < s.tokenize.scanEnd → s.fbByte j ≠ nul ∧ s.fbByte j ≠ asterisk) ∧
    s.tokenize.tcnt = 1 + (s.slice 2 s.tokenize.scanEnd).count sp ∧
    ((s.tokenize.scanEnd < s.len ∧ s.fbByte s.tokenize.scanEnd = asterisk ∧
        s.tokenize.starSeen = true ∧
        s.tokenize.decl =
          htou (s.byteAt (s.tokenize.scanEnd + 1)) (s.byteAt (s.tokenize.scanEnd + 2))) ∨
      ((s.tokenize.scanEnd = s.len ∨
          s.tokenize.scanEnd < s.len ∧ s.fbByte s.tokenize.scanEnd = nul) ∧
        s.tokenize.starSeen = false ∧ s.tokenize.decl = 0#8)) := by
  obtain ⟨eEnd, -, eDecl, eSeen, eCount⟩ := s.tokenize_scan h
  obtain ⟨hge, hle, hscanned, -, hcount, hstop⟩ := (s.scan_run h).spec
  rw [eEnd, eDecl, eSeen, eCount]
  exact ⟨hge, hle, hscanned, hcount, hstop⟩

theorem State.valid_eq_true_iff (s : State) : s.valid = true ↔ s.sum = s.decl := beq_iff_eq

theorem State.valid_eq_false_iff (s : State) : s.valid = false ↔ s.sum ≠ s.decl :=
  beq_eq_false_iff_ne

/-- Settles O20: the two ends of `State.tokenize_spec` exclude each other. -/
theorem scanStopsAtTrailer : Obligations.ScanStopsAtTrailer := by
  intro s h
  obtain ⟨hge, hle, hscanned, -, hstop⟩ := s.tokenize_spec h
  refine ⟨hge, hle, hscanned, ?_⟩
  rcases hstop with ⟨hlt, hstar, hread⟩ | ⟨hend, hnone⟩
  · refine ⟨fun _ => .inr hstar, fun _ _ => hread, fun hend => ?_⟩
    rcases hend with hlen | hnul
    · exact absurd hlen hlt.ne
    · exact absurd (hnul.symm.trans hstar) (by decide)
  · have hnul (hlt : s.tokenize.scanEnd < s.len) : s.fbByte s.tokenize.scanEnd = nul :=
      hend.elim (fun hlen => absurd hlen hlt.ne) And.right
    exact ⟨fun hlt => .inl (hnul hlt),
      fun hlt hstar => absurd ((hnul hlt).symm.trans hstar) (by decide), fun _ => hnone⟩

/-- Settles O21: `State.tokenize_sum_eq_foldl`. -/
theorem sumIsBodySum : Obligations.SumIsBodySum := State.tokenize_sum_eq_foldl

/-- Settles O22: the scanned bytes past the first, of which the spaces are some, are `LEN - 2` at most. -/
theorem tokenCountCountsSpaces : Obligations.TokenCountCountsSpaces := by
  intro s
  by_cases h : 2 ≤ s.len
  · obtain ⟨-, hle, -, hcount, -⟩ := s.tokenize_spec h
    have hspaces := List.count_le_length (a := sp) (l := s.slice 2 s.tokenize.scanEnd)
    rw [s.length_slice] at hspaces
    exact ⟨fun _ => hcount, by omega, by omega⟩
  · obtain ⟨-, -, -, -, hcount, -⟩ := s.tokenize_short h
    exact ⟨fun h' => absurd h' h, by omega, by omega⟩

/-! ### Frames without an asterisk or without a body (R135, R142) -/

/-- Where the scan meets no asterisk, nothing is declared (R135). -/
theorem State.tokenize_no_star (s : State)
    (h : ∀ j, 2 ≤ j → j < s.len → s.fbByte j = asterisk → ∃ k, 2 ≤ k ∧ k < j ∧ s.fbByte k = nul) :
    s.tokenize.starSeen = false ∧ s.tokenize.decl = 0#8 := by
  by_cases h2 : 2 ≤ s.len
  · obtain ⟨hge, -, hscanned, -, ⟨hlt, hstar, -⟩ | ⟨-, hnone⟩⟩ := s.tokenize_spec h2
    · obtain ⟨k, hk, hkEnd, hnul⟩ := h _ hge hlt hstar
      exact absurd hnul (hscanned k hk hkEnd).1
    · exact hnone
  · obtain ⟨-, -, hdecl, hseen, -⟩ := s.tokenize_short h2
    exact ⟨hseen, hdecl⟩

/-- Settles O25: `State.tokenize_no_star`, and `VALID` compares the sum with the 0 declared. -/
theorem missingTrailerNeedsZeroSum : Obligations.MissingTrailerNeedsZeroSum := by
  intro s h
  obtain ⟨hseen, hdecl⟩ := s.tokenize_no_star h
  exact ⟨hdecl, hseen, by rw [State.valid_eq_true_iff, hdecl]⟩

theorem Params.soc_ne_nul {P : Params} (h : P.ok = true) : P.soc ≠ nul := by
  intro heq
  have hnul := P.not_sentinel_of_not_allowed h nul (by decide)
  simp [Params.isSentinel, heq] at hnul

/-- Settles O24: with no body byte the sum is the start byte, which is not the 0 declared. -/
theorem emptyBodyFails : Obligations.EmptyBodyFails := by
  intro s hok hlen
  obtain ⟨hend, hsum, hdecl, -, hcount, -⟩ := s.tokenize_short (by omega)
  have hbyte : s.byteAt 1 = 0#8 := if_neg (by omega)
  rw [hbyte, BitVec.add_zero] at hsum
  refine ⟨?_, hcount, hend, hsum, hdecl⟩
  rw [State.valid_eq_false_iff, hsum, hdecl]
  exact Params.soc_ne_nul hok

/-! ### A changed body byte (R144) -/

/-- The scan ends at the one index that ends it and has no trailer byte before it (R133). -/
theorem State.tokenize_scanEnd_unique {s : State} {m : Nat} (hm : 2 ≤ m) (hle : m ≤ s.len)
    (hbefore : ∀ j, 2 ≤ j → j < m → s.fbByte j ≠ nul ∧ s.fbByte j ≠ asterisk)
    (hstop : m < s.len → s.fbByte m = nul ∨ s.fbByte m = asterisk) : s.tokenize.scanEnd = m := by
  obtain ⟨hge, hleEnd, hscanned, hat, -⟩ := scanStopsAtTrailer s (hm.trans hle)
  rcases Nat.lt_trichotomy s.tokenize.scanEnd m with hlt | heq | hgt
  · obtain ⟨hnul, hstar⟩ := hbefore _ hge hlt
    exact absurd (hat (by omega)) (not_or.mpr ⟨hnul, hstar⟩)
  · exact heq
  · obtain ⟨hnul, hstar⟩ := hscanned m hm hgt
    exact absurd (hstop (by omega)) (not_or.mpr ⟨hnul, hstar⟩)

/-- Frames alike from the scan's end of the one on, neither with a trailer byte before it, have the
same scan's end and declared checksum (R133 to R135). -/
theorem State.tokenize_trailer_congr {s t : State} (hs : 2 ≤ s.len) (hlen : t.len = s.len)
    (hbefore : ∀ j, 2 ≤ j → j < s.tokenize.scanEnd → t.fbByte j ≠ nul ∧ t.fbByte j ≠ asterisk)
    (hfrom : ∀ j, s.tokenize.scanEnd ≤ j → t.fbByte j = s.fbByte j) :
    t.tokenize.scanEnd = s.tokenize.scanEnd ∧ t.tokenize.decl = s.tokenize.decl := by
  obtain ⟨hge, hle, -, hstop, hdecl, hnone⟩ := scanStopsAtTrailer s hs
  have hend : t.tokenize.scanEnd = s.tokenize.scanEnd :=
    State.tokenize_scanEnd_unique hge (hlen ▸ hle) hbefore
      (by rw [hlen, hfrom _ le_rfl]; exact hstop)
  obtain ⟨-, -, -, -, hdecl', hnone'⟩ := scanStopsAtTrailer t (hlen ▸ hs)
  rw [hend, hlen, hfrom _ le_rfl] at hdecl' hnone'
  refine ⟨hend, ?_⟩
  by_cases hstar : s.tokenize.scanEnd < s.len ∧ s.fbByte s.tokenize.scanEnd = asterisk
  · obtain ⟨hlt, hstar⟩ := hstar
    rw [(hdecl hlt hstar).2, (hdecl' hlt hstar).2]
    simp only [State.byteAt, hlen, hfrom _ (Nat.le_add_right _ _)]
  · have hno : s.tokenize.scanEnd = s.len ∨ s.fbByte s.tokenize.scanEnd = nul :=
      hle.eq_or_lt.imp_right fun hlt => (hstop hlt).resolve_right fun h => hstar ⟨hlt, h⟩
    rw [(hnone hno).2, (hnone' hno).2]

theorem foldl_add_injective (bs : List Byte) :
    Function.Injective fun a : Byte => bs.foldl (· + ·) a := by
  induction bs with
  | nil => exact fun _ _ h => h
  | cons b bs ih => exact fun _ _ h => (BitVec.add_left_inj b).mp (ih h)

/-- Frame buffers that differ in one byte of a range differ in its sum (R144). -/
theorem State.foldl_slice_ne {s t : State} {a b j : Nat} (soc : Byte) (ha : a ≤ j) (hb : j < b)
    (hj : t.fbByte j ≠ s.fbByte j) (hother : ∀ k, k ≠ j → t.fbByte k = s.fbByte k) :
    (t.slice a b).foldl (· + ·) soc ≠ (s.slice a b).foldl (· + ·) soc := by
  have hleft : t.slice a j = s.slice a j := State.slice_congr fun k _ hk => hother k hk.ne
  have hright : t.slice (j + 1) b = s.slice (j + 1) b :=
    State.slice_congr fun k hk _ => hother k (by omega)
  rw [← s.slice_append ha hb.le, ← t.slice_append ha hb.le, s.slice_cons hb, t.slice_cons hb,
    hleft, hright, List.foldl_append, List.foldl_append, List.foldl_cons, List.foldl_cons]
  exact fun h => hj ((BitVec.add_right_inj _).mp (foldl_add_injective _ h))

/-- Settles O26: the changed byte leaves the scan's end and the declared checksum as they were
(`State.tokenize_trailer_congr`) and changes the sum (`State.foldl_slice_ne`). -/
theorem singleByteCorruptionDetected : Obligations.SingleByteCorruptionDetected := by
  intro s j v hwf h hvalid h1 hj hne hstar hnul
  generalize ht : ({ s with fb := Memory.write s.fb j v } : State) = t
  have hcfg : t.cfg = s.cfg := by rw [← ht]
  have hlen : t.len = s.len := by rw [← ht]
  obtain ⟨hat, hother⟩ := State.fbByte_write (t := t) hwf (by rw [← ht])
  obtain ⟨-, -, hscanned, -⟩ := s.tokenize_spec h
  obtain ⟨hend, hdecl⟩ := State.tokenize_trailer_congr (t := t) h hlen (fun k hk hlt => by
    rcases eq_or_ne k j with rfl | hkj
    · exact hat ▸ ⟨hnul, hstar⟩
    · exact hother k hkj ▸ hscanned k hk hlt) fun k hk => hother k (by omega)
  rw [State.valid_eq_true_iff, s.tokenize_sum_eq_foldl h] at hvalid
  rw [State.valid_eq_false_iff, t.tokenize_sum_eq_foldl (hlen ▸ h), hend, hcfg, hdecl, ← hvalid]
  exact State.foldl_slice_ne _ h1 hj (hat ▸ hne) hother

/-! ### Hexadecimal and decimal values (R87, R139, R140) -/

/-- A byte outside both digit ranges has the value 0 (R140, D15). -/
theorem hv_of_not_digit {c : Byte} (hdec : c < 0x30#8 ∨ 0x39#8 < c)
    (hhex : c < 0x41#8 ∨ 0x46#8 < c) : hv c = 0#8 := by
  rw [hv, if_neg (by bv_omega), if_neg (by bv_omega)]

/-- What a sender writes for a nibble is an uppercase hex digit (R87). -/
theorem hexUpper_range : ∀ n : BitVec 4,
    (0x30#8 ≤ hexUpper n ∧ hexUpper n ≤ 0x39#8) ∨
      (0x41#8 ≤ hexUpper n ∧ hexUpper n ≤ 0x46#8) := by decide

/-- Settles O28: the sender's digits are those of `htou_hex2`. -/
theorem checksumDigitsRoundTrip : Obligations.ChecksumDigitsRoundTrip := by
  refine ⟨by decide, by decide, fun _ => hv_of_not_digit, fun a b => ?_, fun v => ?_⟩
  · simp only [htou, BitVec.ofNat_add, BitVec.ofNat_mul, BitVec.ofNat_toNat, BitVec.setWidth_eq]
  · refine ⟨_, _, rfl, htou_hex2 v, fun d hd => ?_⟩
    simp only [List.mem_cons, List.not_mem_nil, or_false] at hd
    rcases hd with rfl | rfl
    · exact hexUpper_range _
    · exact hexUpper_range _

/-- One more byte is one more round of R139's loop. -/
theorem dtou_snoc (bs : List Byte) (c : Byte) :
    dtou (bs ++ [c]) = 10#8 * dtou bs + (c - 0x30#8) := by
  rw [dtou, List.foldl_append, ← dtou, List.foldl_cons, List.foldl_nil]

/-- Settles O30: `dtou_snoc`, with the round's arithmetic read mod 256. -/
theorem decimalParseStep : Obligations.DecimalParseStep := by
  refine ⟨rfl, fun bs c => ?_⟩
  simp only [dtou_snoc, BitVec.ofNat_add, BitVec.ofNat_mul, BitVec.ofNat_toNat, BitVec.setWidth_eq]

end Machine
end Sys2Proof
end

section
/-! PROOFS. Family 42_dispatch.md: the dispatch of a frame (O11, O12), the arity check (O43), queries that
fail (O42), and the frame of the commands (O47). -/

namespace Sys2Proof
namespace Machine

/-! ### The dispatch of a frame (R160 to R163) -/

/-- The command word of R161 (D18), with the test for a second byte of token 0 written without
subtraction. -/
theorem State.cw_eq (s : State) :
    s.cw = (if 1 < s.len then s.fbByte 1 else nul) ++
      (if (s.slot 0).ts + 2 ≤ (s.slot 0).te then s.fbByte 2 else nul) := by
  have hsub : s.hasSubLetter = true ↔ (s.slot 0).ts + 2 ≤ (s.slot 0).te := by
    rw [State.hasSubLetter, decide_eq_true_iff]
    omega
  simp only [State.cw, State.byteAt, commandWord, hsub]

section Dispatching

variable {s : State} (hroom : 3 ≤ s.cfg.bufLen)
include hroom

/-- A buffer of three bytes has the index the sub-letter is read at (log entry 7). -/
theorem State.subLetter_in_range :
    ¬ (s.hasSubLetter && decide (s.cfg.bufLen ≤ 2)) = true := by
  rw [Bool.and_eq_true, decide_eq_true_iff]
  omega

/-- With room for the sub-letter, a recognised word's command runs from a cleared payload. -/
theorem State.dispatchStep_instr {i : Instr} (hd : decodeCommand s.cfg s.cw = .instr i) :
    s.dispatchStep = exec i s.clearPayload := by
  simp only [State.dispatchStep, if_neg (State.subLetter_in_range hroom), hd]

theorem State.dispatchStep_rejected {why : Reject}
    (hd : decodeCommand s.cfg s.cw = .rejected why) :
    s.dispatchStep = .next (s.clearPayload.concluded 1#8 .unknown) := by
  simp only [State.dispatchStep, if_neg (State.subLetter_in_range hroom), hd]

end Dispatching

/-- With a frame to dispatch and no host action pending, a step dispatches it. -/
theorem step_eq_dispatchStep {s : State} (hok : s.cfg.ok = true) (hhost : s.host = [])
    (hbusy : s.busy = true) (hphase : s.phase = .dispatch) : step s = s.dispatchStep := by
  rw [step_eq_hostStep hok, State.hostStep_nil hhost]
  simp only [State.engineStep, hbusy, hphase, if_true]

/-- Settles O11: the step dispatches, and `State.cw_eq` is the word spelled out. -/
theorem stepRunsCommand : Obligations.StepRunsCommand := by
  intro s i hok hhost hbusy hphase hroom cat sub hd
  rw [step_eq_dispatchStep hok hhost hbusy hphase]
  exact State.dispatchStep_instr hroom (s.cw_eq ▸ hd)

/-- Settles O12: the step dispatches, and no command has the word of `State.cw_eq`. -/
theorem unrecognisedWordFails : Obligations.UnrecognisedWordFails := by
  intro s why hok hhost hbusy hphase hroom cat sub hd
  rw [step_eq_dispatchStep hok hhost hbusy hphase]
  exact State.dispatchStep_rejected hroom (s.cw_eq ▸ hd)

/-! ### The arity check (R164, R85) -/

theorem Arity.meets_exactly_eq_false_iff {n k : Nat} :
    (Arity.exactly n).meets k = false ↔ k ≠ n := beq_eq_false_iff_ne

theorem Arity.meets_atLeast_eq_false_iff {n k : Nat} :
    (Arity.atLeast n).meets k = false ↔ k < n := by
  rw [Arity.meets, decide_eq_false_iff_not, Nat.not_le]

theorem State.handle_mismatch {s : State} {arity : Arity} (h : arity.meets s.tcnt = false)
    (reads : Nat) (f : State → Result) :
    s.handle arity reads f = .next (s.concluded 1#8 .arity) := by
  rw [State.handle, h, if_neg Bool.false_ne_true]

/-- Every command's meaning begins with the check of its own arity (R164). -/
theorem exec_arity_mismatch {i : Instr} {s : State} (hi : i.isCommand = true)
    (h : i.arity.meets s.tcnt = false) : exec i s = .next (s.concluded 1#8 .arity) := by
  cases i
  case rxSoc | rxEoc | rxData | rxIdle => cases hi
  all_goals
    rw [exec]
    exact State.handle_mismatch h _ _

/-- Settles O43: the arities of R82, each missed by the token count (`exec_arity_mismatch`). -/
theorem arityMismatchFails : Obligations.ArityMismatchFails := by
  rintro i s (⟨hi, hcount⟩ | ⟨hi, hcount⟩ | ⟨rfl, hcount⟩ | ⟨rfl, hcount⟩ | ⟨rfl, hcount⟩)
  · obtain ⟨hcmd, harity⟩ : i.isCommand = true ∧ i.arity = .exactly 1 := by
      revert i
      decide
    exact exec_arity_mismatch hcmd (harity ▸ Arity.meets_exactly_eq_false_iff.mpr hcount)
  · obtain ⟨hcmd, harity⟩ : i.isCommand = true ∧ i.arity = .exactly 2 := by
      revert i
      decide
    exact exec_arity_mismatch hcmd (harity ▸ Arity.meets_exactly_eq_false_iff.mpr hcount)
  · exact exec_arity_mismatch rfl (Arity.meets_atLeast_eq_false_iff.mpr hcount)
  · exact exec_arity_mismatch rfl (Arity.meets_exactly_eq_false_iff.mpr hcount)
  · exact exec_arity_mismatch rfl (Arity.meets_exactly_eq_false_iff.mpr hcount)

/-! ### Queries that fail (R169) -/

/-- A handler ends with a non-zero status as a failure of its transaction (R276). -/
theorem State.finished_of_ne_zero {v : BitVec 8} (h : v ≠ 0#8) (s : State) :
    s.finished v = { s with status := v, phase := .respond .handlerFail } := by
  rw [State.finished, handlerClass, if_neg h, State.concluded]

theorem State.query_failed {s : State} {op : CtlOp} {r : Reply} (payload : Reply → List Byte)
    (ha : s.answerTo op = .reply r) (h : r.status ≠ 0#8) :
    s.query op payload =
      .next { s.called op with status := r.status, phase := .respond .handlerFail } := by
  rw [State.query, State.transact_reply _ ha, if_neg h, State.finished_of_ne_zero h]

/-- The form of every query's meaning: no argument, and a payload that may depend on the build. -/
theorem State.handle_query_failed {s : State} {op : CtlOp} {r : Reply} (hcount : s.tcnt = 1)
    (h : r.status ≠ 0#8) (payload : State → Reply → List Byte) (ha : s.answerTo op = .reply r) :
    s.handle (.exactly 1) 0 (fun t => t.query op (payload t)) =
      .next { s.called op with status := r.status, phase := .respond .handlerFail } := by
  have harity : (Arity.exactly 1).meets s.tcnt = true := beq_iff_eq.mpr hcount
  rw [State.handle_eq _ harity fun _ hj => absurd hj (Nat.not_lt_zero _), State.query_failed _ ha h]

/-- Settles O42: each query is of the form of `State.handle_query_failed`. -/
theorem failedQueriesSendNothing : Obligations.FailedQueriesSendNothing := by
  intro s r hcount h
  refine ⟨?_, ?_, ?_, ?_, ?_⟩
  all_goals
    rw [exec]
    exact State.handle_query_failed hcount h _

/-! ### What the commands leave alone (R168, R35, R36) -/

section CommandFrames

variable {i : Instr} {s t : State} (he : CommandEnd i s t)
include he

/-- Of the commands, `SE` has no transaction (R200). -/
theorem CommandEnd.port_eq (hi : i = .se) :
    t.ctl = s.ctl ∧ t.answers = s.answers ∧ t.draws = s.draws := by
  subst hi
  cases he with
  | arity | arg | echo => exact ⟨rfl, rfl, rfl⟩
  | returned hi => exact absurd rfl hi
  | payload hi => exact absurd hi (by decide)
  | reset hi => cases hi

variable (hreset : i = .fr → ∀ lost, s.answerTo .reset ≠ .resets lost)
include hreset

theorem CommandEnd.outside_eq :
    t.cfg = s.cfg ∧ t.acc = s.acc ∧ t.len = s.len ∧ t.busy = s.busy ∧ t.tcnt = s.tcnt ∧
      t.slots = s.slots ∧ t.scanEnd = s.scanEnd ∧ t.sum = s.sum ∧ t.decl = s.decl ∧
      t.starSeen = s.starSeen ∧ t.left = s.left ∧ t.rx = s.rx ∧ t.tx = s.tx ∧ t.host = s.host ∧
      t.events = s.events := by
  cases he with
  | reset hi lost ha => exact absurd ha (hreset hi lost)
  | arity | arg | echo | returned | payload => simp

theorem CommandEnd.fb_eq : t.fb = s.fb := by
  cases he with
  | reset hi lost ha => exact absurd ha (hreset hi lost)
  | arity | arg | echo | returned | payload => rfl

theorem CommandEnd.echo_eq (hi : i ≠ .se) : t.echo = s.echo := by
  cases he with
  | reset hfr lost ha => exact absurd ha (hreset hfr lost)
  | echo hse => exact absurd hse hi
  | arity | arg | returned | payload => rfl

theorem CommandEnd.payload_eq (hi : i ∉ [Instr.gc, .ge, .gs, .gt, .gv]) :
    t.rb = s.rb ∧ t.rlen = s.rlen ∧ t.pflag = s.pflag := by
  cases he with
  | reset hfr lost ha => exact absurd ha (hreset hfr lost)
  | payload hquery => exact absurd hquery hi
  | arity | arg | echo | returned => exact ⟨rfl, rfl, rfl⟩

end CommandFrames

/-- Settles O47: a part for each of the lemmas about `CommandEnd`, the form in which a command ends. -/
theorem commandsFrame : Obligations.CommandsFrame := by
  intro i s t hi h hreset
  have he := exec_command_next hi h
  exact ⟨he.outside_eq hreset, State.fbByte_congr (he.fb_eq hreset), he.echo_eq hreset,
    he.payload_eq hreset, he.port_eq⟩

end Machine
end Sys2Proof
end

section
/-! PROOFS. Family 43_function_cmds.md: the Function commands' transactions and what they make of the
answers (O31 to O34). -/

namespace Sys2Proof
namespace Machine

/-! ### A command that is one transaction (R165, R276) -/

/-- The transaction returns, and its status becomes the handler's. -/
theorem State.command_reply {s : State} {op : CtlOp} {r : Reply} (ha : s.answerTo op = .reply r) :
    s.command op = .next ((s.called op).finished r.status) := State.transact_reply _ ha

/-- The transaction resets the system, and nothing of the handler is left to do. -/
theorem State.command_resets {s : State} {op : CtlOp} {lost : List Bool}
    (ha : s.answerTo op = .resets lost) :
    s.command op = .next ((s.called op).systemReset lost) := State.transact_resets _ ha

/-! ### Handlers that run (R164) -/

theorem Arity.meets_exactly_self (n : Nat) : (Arity.exactly n).meets n = true := beq_self_eq_true n

/-- A handler without arguments runs where token 0 is the only one. -/
theorem State.handle_no_argument {s : State} (hcount : s.tcnt = 1) (f : State → Result) :
    s.handle (.exactly 1) 0 f = f s :=
  State.handle_eq f (hcount ▸ Arity.meets_exactly_self 1) fun _ hj => absurd hj (Nat.not_lt_zero _)

/-- A handler of one argument runs where there are two tokens and the argument's slot exists. -/
theorem State.handle_one_argument {s : State} (hcount : s.tcnt = 2) (hslot : s.slotInRange 1 = true)
    (f : State → Result) : s.handle (.exactly 2) 1 f = f s :=
  State.handle_eq f (hcount ▸ Arity.meets_exactly_self 2) fun _ hj =>
    Nat.lt_one_iff.mp hj ▸ hslot

/-! ### The meanings of the Function commands (R180 to R185) -/

theorem exec_fe {s : State} (hcount : s.tcnt = 1) : exec .fe s = s.command .enable :=
  State.handle_no_argument hcount (·.command .enable)

theorem exec_fd {s : State} (hcount : s.tcnt = 1) : exec .fd s = s.command .disable :=
  State.handle_no_argument hcount (·.command .disable)

theorem exec_fs {s : State} (hcount : s.tcnt = 1) : exec .fs s = s.command .sleep :=
  State.handle_no_argument hcount (·.command .sleep)

theorem exec_fr {s : State} (hcount : s.tcnt = 1) : exec .fr s = s.command .reset :=
  State.handle_no_argument hcount (·.command .reset)

theorem exec_fb {s : State} (hcount : s.tcnt = 2) (hslot : s.slotInRange 1 = true) :
    exec .fb s = s.command (.backlight (s.decArg 1)) :=
  State.handle_one_argument hcount hslot fun t => t.command (.backlight (t.decArg 1))

theorem exec_fp {s : State} (hcount : 4 ≤ s.tcnt) (hslots : ∀ j < 3, s.slotInRange (j + 1) = true)
    (hend : s.scanEnd ≤ s.cfg.bufLen) :
    exec .fp s = s.command (.print (s.decArg 1) (s.decArg 2) (s.textFrom 3)) := by
  have harity : (Instr.arity .fp).meets s.tcnt = true := decide_eq_true hcount
  rw [exec, execFp, State.handle_eq _ harity hslots, if_pos hend]

/-! ### The obligations -/

/-- Settles O31: each of the three is its one transaction, which returns. -/
theorem functionCommandsComplete : Obligations.FunctionCommandsComplete := by
  intro s r hcount
  exact ⟨fun ha => (exec_fe hcount).trans (State.command_reply ha),
    fun ha => (exec_fd hcount).trans (State.command_reply ha),
    fun ha => (exec_fs hcount).trans (State.command_reply ha)⟩

/-- Settles O32: FR is its one transaction, which returns or resets the system; with no answer given,
`State.answerTo_free` leaves these two. -/
theorem watchdogResetHasTwoBranches : Obligations.WatchdogResetHasTwoBranches := by
  intro s hcount
  have returns : ∀ r, s.answerTo .reset = .reply r →
      exec .fr s = .next ((s.called .reset).finished r.status) :=
    fun _ ha => (exec_fr hcount).trans (State.command_reply ha)
  have resets : ∀ lost, s.answerTo .reset = .resets lost →
      exec .fr s = .next ((s.called .reset).systemReset lost) :=
    fun _ ha => (exec_fr hcount).trans (State.command_resets ha)
  refine ⟨returns, fun lost ha => ⟨_, resets lost ha, ?_⟩, fun hnone => ?_⟩
  · simp
  · rcases State.answerTo_free .reset hnone with ha | ⟨-, ha⟩
    · exact ⟨_, returns _ ha, rfl, rfl, .inl ⟨_, rfl, rfl, rfl, rfl⟩⟩
    · exact ⟨_, resets _ ha, rfl, rfl, .inr ⟨rfl, rfl, rfl⟩⟩

/-- Settles O33: `State.decArg` is the decimal parse of the argument's text. -/
theorem backlightSetsValue : Obligations.BacklightSetsValue := by
  intro s r hcount hslot ha
  exact (exec_fb hcount hslot).trans (State.command_reply ha)

/-- Settles O34: `State.textFrom` is the slice from token 3 to the scan's end. -/
theorem printSendsFreeText : Obligations.PrintSendsFreeText := by
  rintro s r hcount ⟨hslot1, hslot2, hslot3⟩ hend op ha
  have hslots : ∀ j < 3, s.slotInRange (j + 1) = true
    | 0, _ => hslot1
    | 1, _ => hslot2
    | 2, _ => hslot3
  exact (exec_fp hcount hslots hend).trans (State.command_reply ha)

end Machine
end Sys2Proof
end

section
/-! PROOFS. Family 44_set_cmds.md: the Set commands' transactions and what they make of the answers
(O35 to O40). -/

namespace Sys2Proof
namespace Machine

/-! ### Handlers that read all their arguments (R164, R199) -/

/-- A handler of a fixed number of arguments runs where each of them is there and its slot exists. -/
theorem State.handle_arguments {s : State} {n : Nat} (hcount : s.tcnt = n + 1)
    (hslots : ∀ j < n, s.slotInRange (j + 1) = true) (f : State → Result) :
    s.handle (.exactly (n + 1)) n f = f s :=
  State.handle_eq f (hcount ▸ Arity.meets_exactly_self (n + 1)) hslots

/-- D12: a switch is on at any value but 0. -/
theorem boolOf_eq_decide (v : BitVec 8) : boolOf v = decide (v ≠ 0#8) :=
  Bool.eq_iff_iff.mpr (bne_iff_ne.trans decide_eq_true_iff.symm)

/-- The form of the five check switches: one bit of one argument, sent by one transaction. -/
theorem State.handle_switch {s : State} {r : Reply} (hcount : s.tcnt = 2)
    (hslot : s.slotInRange 1 = true) (op : Bool → CtlOp)
    (ha : s.answerTo (op (decide (dtou (s.arg 1) ≠ 0#8))) = .reply r) :
    s.handle (.exactly 2) 1 (fun t => t.command (op (boolOf (t.decArg 1)))) =
      .next ((s.called (op (decide (dtou (s.arg 1) ≠ 0#8)))).finished r.status) := by
  rw [State.handle_one_argument hcount hslot, State.decArg, boolOf_eq_decide,
    State.command_reply ha]

/-! ### The meanings of the other Set commands (R200, R201, R204, R207, R209) -/

theorem exec_se {s : State} (hcount : s.tcnt = 2) (hslot : s.slotInRange 1 = true) :
    exec .se s = .next (({ s with echo := boolOf (s.decArg 1) } : State).finished 0#8) :=
  State.handle_one_argument hcount hslot fun t =>
    .next (({ t with echo := boolOf (t.decArg 1) } : State).finished 0#8)

theorem exec_sc {s : State} (hcount : s.tcnt = 2) (hslot : s.slotInRange 1 = true) :
    exec .sc s = s.command (.setCapacity (s.decArg 1)) :=
  State.handle_one_argument hcount hslot fun t => t.command (.setCapacity (t.decArg 1))

/-- SL reads no more of its argument than the first byte. -/
theorem exec_sl {s : State} (hcount : s.tcnt = 2) (hslot : s.slotInRange 1 = true) :
    exec .sl s =
      if (s.arg 1).headD 0x00#8 = 0x31#8 then s.command (.setSvcLevel .level1)
      else if (s.arg 1).headD 0x00#8 = 0x32#8 then s.command (.setSvcLevel .level2)
      else if (s.arg 1).headD 0x00#8 = 0x41#8 then s.command .setAutoSvc
      else .next (s.concluded 1#8 .arg) := by
  rw [exec, execSl, Instr.arity, State.handle_one_argument hcount hslot, s.firstByte_eq, nul]

/-- ST is one transaction on either side of its test. -/
theorem exec_st {s : State} (hcount : s.tcnt = 5) (hslots : ∀ j < 4, s.slotInRange (j + 1) = true) :
    exec .st s = s.command
      (if s.decArg 1 = 0#8 ∧ s.decArg 2 = 0#8 ∧ s.decArg 3 = 0#8 ∧ s.decArg 4 = 0#8 then .timerDisable
      else .timerSet (s.decArg 1) (s.decArg 2) (s.decArg 3) (s.decArg 4)) := by
  rw [exec, execSt, Instr.arity, State.handle_arguments hcount hslots, ← apply_ite s.command]

theorem exec_s1 {s : State} (hcount : s.tcnt = 7) (hslots : ∀ j < 6, s.slotInRange (j + 1) = true) :
    exec .s1 s = s.command (.setTime (s.decArg 1) (s.decArg 2) (s.decArg 3) (s.decArg 4)
      (s.decArg 5) (s.decArg 6)) := by
  rw [exec, execS1, Instr.arity, State.handle_arguments hcount hslots]

/-! ### The obligations -/

/-- Settles O35: the parsed argument as a switch (`boolOf_eq_decide`). -/
theorem echoSwitchWritesEcho : Obligations.EchoSwitchWritesEcho := by
  intro s hcount hslot
  rw [exec_se hcount hslot, boolOf_eq_decide]
  rfl

/-- Settles O36: `State.decArg` is the decimal parse of the argument's text. -/
theorem capacityIsSet : Obligations.CapacityIsSet := by
  intro s r hcount hslot ha
  exact (exec_sc hcount hslot).trans (State.command_reply ha)

/-- Settles O37: each of the five is of the form of `State.handle_switch`. -/
theorem checkSwitchesComplete : Obligations.CheckSwitchesComplete := by
  intro s r hcount hslot b done
  exact ⟨State.handle_switch hcount hslot .setDiodeChk,
    State.handle_switch hcount hslot .setGndChk,
    State.handle_switch hcount hslot .setRelayChk,
    State.handle_switch hcount hslot .setSelftest,
    State.handle_switch hcount hslot .setVentReq⟩

/-- Settles O38: the branches of `exec_sl`, each chosen by the first byte. -/
theorem serviceLevelSelects : Obligations.ServiceLevelSelects := by
  intro s hcount hslot done
  rw [exec_sl hcount hslot]
  refine ⟨fun r h ha => ?_, fun r h ha => ?_, fun r h ha => ?_, fun h1 h2 hA => ?_⟩
  · rw [if_pos h]
    exact State.command_reply ha
  · rw [h, if_neg (by decide), if_pos rfl]
    exact State.command_reply ha
  · rw [h, if_neg (by decide), if_neg (by decide), if_pos rfl]
    exact State.command_reply ha
  · rw [if_neg h1, if_neg h2, if_neg hA, State.concluded]

/-- Settles O39: the transaction that the test on the four parsed values chooses (`exec_st`). -/
theorem timerScheduleOrDisable : Obligations.TimerScheduleOrDisable := by
  intro s r hcount hslots a b c d op ha
  exact (exec_st hcount hslots).trans (State.command_reply ha)

/-- Settles O40: the six parsed values, in token order (`exec_s1`). -/
theorem clockIsSet : Obligations.ClockIsSet := by
  intro s r hcount hslots op ha
  exact (exec_s1 hcount hslots).trans (State.command_reply ha)

end Machine
end Sys2Proof
end

section
/-! PROOFS. Family 45_get_cmds.md: what a query whose transaction returns status 0 writes to the payload
registers (O41), and the digits of its flags word (R255). -/

namespace Sys2Proof
namespace Machine

/-! ### The flags word (R255) -/

/-- R255: the digit of a value below 16, by its place after `0` or after `a`. -/
def lowerDigit (n : Nat) : Byte := BitVec.ofNat 8 (if n < 10 then 0x30 + n else 0x61 + (n - 10))

theorem hexLower_eq_lowerDigit : ∀ n : BitVec 4, hexLower n = lowerDigit n.toNat := by decide

/-- The digit that the four bits from bit `k` on make is that of the number those bits are. -/
theorem hexLower_extractLsb' (v : BitVec 16) (k : Nat) :
    hexLower (v.extractLsb' k 4) = lowerDigit (v.toNat / 2 ^ k % 16) := by
  rw [hexLower_eq_lowerDigit, BitVec.extractLsb'_toNat, Nat.shiftRight_eq_div_pow]

/-- The four digits by division, the most significant first. -/
theorem hex4_eq (v : BitVec 16) :
    hex4 v = [lowerDigit (v.toNat / 4096), lowerDigit (v.toNat / 256 % 16),
      lowerDigit (v.toNat / 16 % 16), lowerDigit (v.toNat % 16)] := by
  have htop : v.toNat / 4096 % 16 = v.toNat / 4096 := Nat.mod_eq_of_lt (by omega)
  simp only [hex4, hexLower_extractLsb', Nat.reducePow, Nat.div_one, htop]

/-! ### A query that succeeds (R169, R256) -/

/-- What R256 keeps of a payload is its first `P_RESP_LEN` bytes. -/
theorem State.setPayload_eq (s : State) (p : List Byte) :
    s.setPayload p =
      { s with
        pflag := true, rlen := min p.length s.cfg.respLen
        rb := p.take s.cfg.respLen ++ s.rb.drop (min p.length s.cfg.respLen) } := by
  rw [State.setPayload, min_comm, ← List.take_eq_take_min]

theorem State.query_succeeded {s : State} {op : CtlOp} {r : Reply} (payload : Reply → List Byte)
    (ha : s.answerTo op = .reply r) (h : r.status = 0#8) :
    s.query op payload = .next (((s.called op).setPayload (payload r)).finished 0#8) := by
  rw [State.query, State.transact_reply _ ha, if_pos h, h]

/-- Each of the five meanings is such a handler; a payload may depend on the build (R232, R234). -/
theorem State.handle_query_succeeded {s : State} {op : CtlOp} {r : Reply} (hcount : s.tcnt = 1)
    (h : r.status = 0#8) (payload : State → Reply → List Byte) (ha : s.answerTo op = .reply r) :
    s.handle (.exactly 1) 0 (fun t => t.query op (payload t)) =
      .next { s.called op with
        status := 0#8, pflag := true, rlen := min (payload s r).length s.cfg.respLen
        rb := (payload s r).take s.cfg.respLen ++
          s.rb.drop (min (payload s r).length s.cfg.respLen)
        phase := .respond .ok } := by
  rw [State.handle_no_argument hcount, State.query_succeeded _ ha h, State.setPayload_eq]
  rfl

/-- Settles O41: each query is of the form of `State.handle_query_succeeded`, and the flags word of GS
is written in the digits of `hex4_eq`. -/
theorem queriesAnswerPayload : Obligations.QueriesAnswerPayload := by
  intro s r hcount h digit f hex done
  have hhex : hex4 r.flags = hex := hex4_eq r.flags
  refine ⟨?_, hhex ▸ ?_, ?_, ?_, ?_⟩
  all_goals
    rw [exec]
    exact State.handle_query_succeeded hcount h _

end Machine
end Sys2Proof
end

section
/-! PROOFS. Family 46_response.md: the response frame (O13), the payload's presence (O49), and the decimal
text of a number (O29). -/

namespace Sys2Proof
namespace Machine

/-! ### The response frame (R250 to R252) -/

theorem responseBytes_okBit (s : State) :
    responseBytes s.cfg s.okBit (s.payload s.okBit) =
      s.cfg.soc :: (if s.status = 0#8 then okText else nkText)
        ++ (if s.status = 0#8 ∧ s.pflag = true then s.rb.take s.rlen else []) ++ [s.cfg.eoc] := by
  simp only [responseBytes, State.payload, State.okBit, Bool.and_eq_true, beq_iff_eq]

/-- With a response to send and no host action pending, a step sends it. -/
theorem step_eq_respondStep {s : State} {cls : FrameClass} (hok : s.cfg.ok = true)
    (hhost : s.host = []) (hbusy : s.busy = true) (hphase : s.phase = .respond cls) :
    step s = .next (s.respondStep cls) := by
  rw [step_eq_hostStep hok, State.hostStep_nil hhost]
  simp only [State.engineStep, hbusy, hphase, if_true]

/-- Settles O13: the step responds, with the bytes of `responseBytes_okBit`. -/
theorem responseFrameSent : Obligations.ResponseFrameSent := by
  intro s cls hok hhost hbusy hphase
  rw [step_eq_respondStep hok hhost hbusy hphase, ← responseBytes_okBit]
  rfl

/-! ### The payload's presence (R169, R252) -/

/-- Settles O49: of the ways in which a command ends, only a query's success sets `PFLAG`. -/
theorem payloadOnlyFromQueries : Obligations.PayloadOnlyFromQueries := by
  intro i s t hi hclear h hset
  cases exec_command_next hi h with
  | payload hquery => exact ⟨hquery, State.finished_status _ _⟩
  | reset => cases hset
  | arity | arg | echo | returned => exact absurd (hclear.symm.trans hset) Bool.false_ne_true

/-! ### The decimal text (R254, R139) -/

/-- R254: the digit of a value below 10. -/
def decDigit (d : Nat) : Byte := BitVec.ofNat 8 (0x30 + d)

theorem toNat_decDigit {d : Nat} (h : d < 10) : (decDigit d).toNat = 0x30 + d := by
  rw [decDigit, BitVec.toNat_ofNat]
  omega

/-- With enough rounds, R254's loop writes the digits that Mathlib's `Nat.digits` lists lowest first. -/
theorem decDigits_eq {fuel v : Nat} (h0 : v ≠ 0) (h : v < 2 ^ fuel) (acc : List Byte) :
    decDigits fuel v acc = ((Nat.digits 10 v).map decDigit).reverse ++ acc := by
  induction fuel generalizing v acc with
  | zero => exact absurd (Nat.lt_one_iff.mp h) h0
  | succ fuel ih =>
    have hdigits : Nat.digits 10 v = v % 10 :: Nat.digits 10 (v / 10) :=
      Nat.digits_def' (by decide) (Nat.pos_of_ne_zero h0)
    rw [decDigits, hdigits, List.map_cons, List.reverse_cons, List.append_assoc]
    by_cases hlast : v / 10 = 0
    · rw [if_pos hlast, hlast]
      rfl
    · rw [if_neg hlast]
      exact ih hlast (by omega) _

theorem dec_eq_digits {n : Nat} (h : n ≠ 0) :
    dec n = ((Nat.digits 10 n).map decDigit).reverse :=
  (decDigits_eq h Nat.lt_log2_self []).trans (List.append_nil _)

theorem dec_range {n : Nat} {c : Byte} (hc : c ∈ dec n) : 0x30#8 ≤ c ∧ c ≤ 0x39#8 := by
  obtain ⟨d, hd, rfl⟩ : ∃ d < 10, decDigit d = c := by
    by_cases h : n = 0
    · subst h
      exact ⟨0, by decide, (List.mem_singleton.mp hc).symm⟩
    · rw [dec_eq_digits h, List.mem_reverse, List.mem_map] at hc
      obtain ⟨d, hd, rfl⟩ := hc
      exact ⟨d, Nat.digits_lt_base (by decide) hd, rfl⟩
  have := toNat_decDigit hd
  bv_omega

/-- A positive number's text begins with its highest digit, which is not zero. -/
theorem dec_no_leading_zero {n : Nat} (h : n ≠ 0) :
    ∃ c rest, dec n = c :: rest ∧ c ≠ 0x30#8 := by
  have hne : Nat.digits 10 n ≠ [] := Nat.digits_ne_nil_iff_ne_zero.mpr h
  have htop : (Nat.digits 10 n).getLast hne ≠ 0 := Nat.getLast_digit_ne_zero 10 h
  have hlt : (Nat.digits 10 n).getLast hne < 10 :=
    Nat.digits_lt_base (by decide) (List.getLast_mem hne)
  refine ⟨decDigit ((Nat.digits 10 n).getLast hne),
    ((Nat.digits 10 n).dropLast.map decDigit).reverse, ?_, fun hc => htop ?_⟩
  · rw [dec_eq_digits h, ← List.reverse_concat', ← List.map_singleton (f := decDigit),
      ← List.map_append, List.dropLast_append_getLast]
  · have := toNat_decDigit hlt
    rw [hc, BitVec.toNat_ofNat] at this
    omega

/-- The exact value of a decimal text, the most significant digit first. -/
def decValue (bs : List Byte) : Nat := bs.foldl (fun v c => 10 * v + (c.toNat - 0x30)) 0

theorem decValue_snoc (bs : List Byte) (c : Byte) :
    decValue (bs ++ [c]) = 10 * decValue bs + (c.toNat - 0x30) := by
  rw [decValue, List.foldl_append, ← decValue, List.foldl_cons, List.foldl_nil]

theorem decValue_digits {ds : List Nat} (h : ∀ d ∈ ds, d < 10) :
    decValue (ds.map decDigit).reverse = Nat.ofDigits 10 ds := by
  induction ds with
  | nil => rfl
  | cons d ds ih =>
    obtain ⟨hd, hds⟩ := List.forall_mem_cons.mp h
    rw [List.map_cons, List.reverse_cons, decValue_snoc, ih hds, toNat_decDigit hd, Nat.ofDigits_cons]
    omega

theorem decValue_dec (n : Nat) : decValue (dec n) = n := by
  by_cases h : n = 0
  · subst h
    rfl
  · rw [dec_eq_digits h, decValue_digits fun _ hd => Nat.digits_lt_base (by decide) hd,
      Nat.ofDigits_digits]

/-- Where no byte is below `0`, R139's parse is the exact value mod 256. -/
theorem dtou_eq_decValue {bs : List Byte} (h : ∀ c ∈ bs, 0x30#8 ≤ c) :
    dtou bs = BitVec.ofNat 8 (decValue bs) := by
  induction bs using List.reverseRecOn with
  | nil => rfl
  | append_singleton bs c ih =>
    obtain ⟨hbs, hc⟩ := List.forall_mem_append.mp h
    have hdigit : c - 0x30#8 = BitVec.ofNat 8 (c.toNat - 0x30) := by
      have := hc c (List.mem_singleton_self c)
      bv_omega
    rw [dtou_snoc, ih hbs, hdigit, decValue_snoc, BitVec.ofNat_add, BitVec.ofNat_mul]

/-- Settles O29: the text's digits are those of `dec_eq_digits`, which have the value of
`decValue_dec`. -/
theorem decimalTextRoundTrip : Obligations.DecimalTextRoundTrip := by
  intro n
  refine ⟨fun _ => dec_range, decValue_dec n, fun h => h ▸ rfl, dec_no_leading_zero, ?_⟩
  rw [dtou_eq_decValue fun _ hc => (dec_range hc).1, decValue_dec]

end Machine
end Sys2Proof
end

section
/-! PROOFS. Families 60_exceptions.md and 70_reset_and_hazards.md: the collaborator's answers and what a
transaction makes of them (O44 to O46), a strobe inside a cycle (O17), and the system reset (O18, O19,
O55). -/

namespace Sys2Proof
namespace Machine

/-! ### The collaborator's answers (R286) -/

/-- D26: a free answer keeps the limit on its text. -/
theorem holdsSentinel_freeReply (P : Params) (n : Nat) :
    P.holdsSentinel (freeReply P n).text = false := by
  refine List.any_eq_false.mpr fun c hc => ?_
  simpa using (List.mem_filter.mp hc).2

/-- D26: a given result is returned unless it is a text that is sent on and holds a sentinel. -/
theorem State.answerTo_of_returned {s : State} {r : Reply} {rest : List Answer} (op : CtlOp)
    (h : s.answers = .returned r :: rest) :
    s.answerTo op =
      if op.returnsText = true ∧ r.status = 0#8 ∧ s.cfg.holdsSentinel r.text = true then
        .broken .textHoldsSentinel
      else .reply r := by
  simp only [State.answerTo, h, Bool.and_eq_true, beq_iff_eq, and_assoc]

theorem State.answerTo_of_never {s : State} {rest : List Answer} (op : CtlOp)
    (h : s.answers = .never :: rest) : s.answerTo op = .hangs := by
  simp only [State.answerTo, h]

theorem State.answerTo_of_resets {s : State} {lost : List Bool} {rest : List Answer} (op : CtlOp)
    (h : s.answers = .resets lost :: rest) :
    s.answerTo op = if op = .reset then .resets lost else .broken .resetNotByReset := by
  simp only [State.answerTo, h]

/-- Settles O45: the equation of `State.answerTo` for each answer that can be next. -/
theorem collaboratorAnswersAreUsed : Obligations.CollaboratorAnswersAreUsed := by
  intro s op
  refine ⟨⟨_, rfl⟩, fun hnone => ?_, fun r rest h hclean => ?_,
    fun _ => State.answerTo_of_never op, fun lost rest h => ⟨fun hop => ?_, fun hop => ?_⟩⟩
  · rcases State.answerTo_free op hnone with ha | ⟨hop, ha⟩
    · exact .inl ⟨_, ha, holdsSentinel_freeReply _ _⟩
    · exact .inr ⟨hop, _, ha⟩
  · rw [State.answerTo_of_returned op h, if_neg]
    rintro ⟨htext, -, hsentinel⟩
    simp [htext, hsentinel] at hclean
  · rw [State.answerTo_of_resets op h, if_pos hop]
  · rw [State.answerTo_of_resets op h, if_neg hop]

/-- A transaction whose answer breaks the contract ends the run. -/
theorem State.transact_broken {s : State} {op : CtlOp} {why : Refusal}
    (k : Reply → State → Result) (h : s.answerTo op = .broken why) :
    s.transact op k = .refused why := by
  simp only [State.transact, h]

/-- Settles O46: GT and GV are one transaction each, and both send its text on. -/
theorem sentinelTextIsRefused : Obligations.SentinelTextIsRefused := by
  intro s r rest hcount h hstatus hsentinel
  have hbroken : ∀ op : CtlOp, op.returnsText = true →
      s.answerTo op = .broken .textHoldsSentinel := by
    intro op htext
    rw [State.answerTo_of_returned op h, if_pos ⟨htext, hstatus, hsentinel⟩]
  constructor
  all_goals
    rw [exec]
    exact (State.handle_no_argument hcount _).trans (State.transact_broken _ (hbroken _ rfl))

/-! ### The stuck engine (R286, R13) -/

section Stuck

variable {s : State} {rest : List Answer} (h : s.answers = .never :: rest)
include h

theorem State.transact_of_never (op : CtlOp) (k : Reply → State → Result) :
    s.transact op k = .fault .collaboratorHangs := by
  simp only [State.transact, State.answerTo_of_never op h]

theorem State.command_of_never (op : CtlOp) : s.command op = .fault .collaboratorHangs :=
  State.transact_of_never h op _

/-- The commands without arguments: four functions and five queries. -/
theorem exec_no_argument_of_never (hcount : s.tcnt = 1) :
    ∀ i ∈ [Instr.fe, .fd, .fs, .fr, .gc, .gs, .ge, .gt, .gv],
      exec i s = .fault .collaboratorHangs := by
  simp only [List.forall_mem_cons]
  refine ⟨?_, ?_, ?_, ?_, ?_, ?_, ?_, ?_, ?_, nofun⟩
  all_goals
    rw [exec]
    exact (State.handle_no_argument hcount _).trans (State.transact_of_never h _ _)

/-- The commands of one argument that send it whatever it is. -/
theorem exec_one_argument_of_never (hcount : s.tcnt = 2) (hslot : s.slotInRange 1 = true) :
    ∀ i ∈ [Instr.fb, .sc, .sd, .sg, .sr, .ss, .sv], exec i s = .fault .collaboratorHangs := by
  simp only [List.forall_mem_cons]
  refine ⟨?_, ?_, ?_, ?_, ?_, ?_, ?_, nofun⟩
  all_goals
    rw [exec]
    exact (State.handle_one_argument hcount hslot _).trans (State.transact_of_never h _ _)

/-- SL with a letter it takes (R204). -/
theorem exec_sl_of_never (hcount : s.tcnt = 2) (hslot : s.slotInRange 1 = true)
    (hletter : (s.arg 1).headD 0x00#8 ∈ [0x31#8, 0x32#8, 0x41#8]) :
    exec .sl s = .fault .collaboratorHangs := by
  rw [exec_sl hcount hslot]
  split_ifs with h1 h2 hA
  · exact State.command_of_never h _
  · exact State.command_of_never h _
  · exact State.command_of_never h _
  · simp only [List.mem_cons, List.not_mem_nil, h1, h2, hA, or_self] at hletter

/-- The notifier's query (R101), at the start of a cycle. -/
theorem State.startCycle_of_never (hbusy : s.busy = false) (hidden : Nat) :
    s.startCycle true hidden = .fault .collaboratorHangs := by
  have hstuck := State.transact_of_never (s := { s with busy := true }) h .notifyQuery
  simp only [State.startCycle, hbusy, Bool.false_eq_true, if_false, if_true, hstuck]

end Stuck

/-- Settles O44: a part for each form of meaning, all of them one transaction. -/
theorem hangingTransactionStopsEngine : Obligations.HangingTransactionStopsEngine := by
  intro s rest h
  refine ⟨exec_no_argument_of_never h, exec_one_argument_of_never h, exec_sl_of_never h,
    fun hcount hslots hend => ?_, fun hcount hslots => ?_, fun hcount hslots => ?_,
    fun hidden acts hok hbusy hhost => ?_⟩
  · exact (exec_fp hcount hslots hend).trans (State.command_of_never h _)
  · exact (exec_st hcount hslots).trans (State.command_of_never h _)
  · exact (exec_s1 hcount hslots).trans (State.command_of_never h _)
  · rw [step_eq_hostStep hok, State.hostStep_strobe hhost]
    exact State.startCycle_of_never (s := { s with host := acts }) h hbusy hidden

/-! ### A strobe inside a cycle (R282, D31) -/

theorem State.startCycle_busy {s : State} (hbusy : s.busy = true) (notifyEn : Bool) (hidden : Nat) :
    s.startCycle notifyEn hidden = .refused .reentrantCycle := if_pos hbusy

/-- Settles O17: the host's strobe is the start of a cycle, which `State.startCycle_busy` refuses. -/
theorem reentrantStrobeRefused : Obligations.ReentrantStrobeRefused := by
  intro s notifyEn hidden rest hok hbusy hhost
  rw [step_eq_hostStep hok, State.hostStep_strobe hhost]
  exact State.startCycle_busy (s := { s with host := rest }) hbusy notifyEn hidden

/-! ### The system reset (R283, R300, R302) -/

/-- Settles O18: the host's reset is `State.systemReset`, whose fields the model's laws list. -/
theorem systemResetClearsRegisters : Obligations.SystemResetClearsRegisters := by
  intro s lost rest hok hhost
  have hstep : step s = .next (({ s with host := rest } : State).systemReset lost) :=
    (step_eq_hostStep hok).trans (State.hostStep_reset hhost)
  have hlive : ({ s with host := rest } : State).liveBytes = s.slice 0 s.len := rfl
  refine ⟨_, hstep, ?_⟩
  simp [keepPending_sublist, hlive]

/-- D42: of what the cut step appended to TX, the first `sent` bytes are out. -/
theorem State.cutTx_append {s u : State} {w : List Byte} (h : u.tx = s.tx ++ w) (sent : Nat) :
    (u.cutTx s.tx.length sent).tx = s.tx ++ w.take sent := by
  rw [State.cutTx_tx, h, List.take_length_add_append]

/-- Settles O19: either host form resets the state that the cut step leads to, and `State.cutTx_append`
is what is left on TX. -/
theorem resetCutsTransmission : Obligations.ResetCutsTransmission := by
  intro s u sent lost rest w hok htx hcut
  have hstep : step s = .next ((u.cutTx s.tx.length sent).systemReset lost) := by
    rw [step_eq_hostStep hok]
    rcases hcut with ⟨hhost, hu⟩ | ⟨notifyEn, hhost, hu⟩
    · rw [State.hostStep_resetDuring hhost, hu, cutShort]
    · rw [State.hostStep_strobeReset hhost, hu, cutShort]
  refine ⟨_, hstep, State.cutTx_append htx sent, ?_⟩
  simp [keepPending_sublist]

/-- Settles O55: the reset state of every build meets the invariant (`State.resetOf_inv`). -/
theorem resetMeetsInvariant : Obligations.ResetMeetsInvariant :=
  ⟨State.resetOf_inv Params.default, State.resetOf_inv⟩

end Machine
end Sys2Proof
end
